-- ==== Sys2Proof/Word.lean ====
section
/-! DEFINITION. The byte the links carry, and the microsecond timers' carrier.

Every quantity of the spec other than a byte is an exact integer (00_scope.md section 5.3: "Intermediate products
are exact"), so it is an `Int` or a `Nat` here and not a bit vector. -/

namespace Sys2Proof

/-- One byte of a frame, a payload or an archive page. -/
abbrev Byte := BitVec 8

/-- A timer of the block: `none` while it is stopped, otherwise the time of its expiry in µs on the clock that
starts at 0 at COLD (R114's clock, at µs resolution). -/
abbrev Timer := Option Nat

end Sys2Proof
end

