-- ==== Sys2Proof/Syntax.lean ====
section
/-! DEFINITION. The commands of the block: one constructor of `Instr` for each row of spec/opcode_table.json.

A request row (OPEN_PANEL … CLEAR_TALLIES, UNKNOWN_REQUEST) is the event "the request engine takes the request that
the arbiter grants, and it is of this kind" (R166, R167): its operands (link, sequence, payload) are in the granted
frame, which a FRAME_RECEIVED put into the link's receive queue. The other rows carry what the event brings from
outside: bytes, line levels, a converter reading, the verdict of a verification. -/

namespace Sys2Proof

/-- The three serial links (00_scope.md section 1). -/
inductive Link where
  | cab | plant | record
deriving DecidableEq, Repr

/-- The three drive channels (06_drive_channels.md). -/
inductive DriveId where
  | a | b | p
deriving DecidableEq, Repr

/-- The two wheel drives, the ones that have stalls, a reverse timer and loaded time (R113). -/
inductive WheelId where
  | a | b
deriving DecidableEq, Repr

/-- The four steering plates (07_steering_plates.md 7.1). -/
inductive PlateId where
  | af | ar | bf | br
deriving DecidableEq, Repr

/-- One constructor for each row of the opcode table, in the table's order. -/
inductive Instr where
  /-- RESET_LINE_ASSERT (R14). -/
  | resetLineAssert
  /-- COLD (R14): power-on, or the release of the reset line. -/
  | cold
  /-- WARM (R15): the last byte of the RESTART reply has left the Cab link. -/
  | warm
  /-- FRAME_RECEIVED (R163): these bytes arrive on this link, none more than 10 ms after the one before. -/
  | frameReceived (l : Link) (bytes : List Byte)
  /-- BYTE_PAUSE_TIMEOUT (R163): more than 10 ms have passed since the last byte on this link. -/
  | bytePauseTimeout (l : Link)
  /-- REPLY_SENT (R166): the oldest reply of this link has left it. -/
  | replySent (l : Link)
  /-- SILENCE_EXPIRY (R169): this link's silence timer expires. -/
  | silenceExpiry (l : Link)
  /-- UNKNOWN_REQUEST (R167): the granted request's kind names no request. -/
  | unknownRequest
  /-- OPEN_PANEL (R6, R7). -/
  | openPanel
  /-- CLOSE_PANEL (R9, R10). -/
  | closePanel
  /-- ABANDON_PANEL (R12). -/
  | abandonPanel
  /-- EXTEND_DEPTH (R13). -/
  | extendDepth
  /-- SET_DEPTH (R38). -/
  | setDepth
  /-- SET_WHEEL (R154). -/
  | setWheel
  /-- KEEP_WHEEL (R157). -/
  | keepWheel
  /-- SET_FEED (R154). -/
  | setFeed
  /-- SET_TUNING (R154, R98). -/
  | setTuning
  /-- SET_ACQUISITION (R22). -/
  | setAcquisition
  /-- RESTART_DRIVE (R117). -/
  | restartDrive
  /-- CLEAR_PLATE_FAULT (R134). -/
  | clearPlateFault
  /-- TAKE_PUMP (R160). -/
  | takePump
  /-- RECLAIM_PUMP (R160). -/
  | reclaimPump
  /-- RESTART (R15). -/
  | restart
  /-- SET_PUMP (R154). -/
  | setPump
  /-- REPORT_RETURN (R137). -/
  | reportReturn
  /-- RELEASE_PUMP (R159). -/
  | releasePump
  /-- READ_STATUS (R172). -/
  | readStatus
  /-- READ_SNAPSHOT (R32). -/
  | readSnapshot
  /-- READ_STATIONS (R72). -/
  | readStations
  /-- CANCEL_HOLD (R78). -/
  | cancelHold
  /-- READ_DEMANDS (R161). -/
  | readDemands
  /-- READ_TALLIES (R123). -/
  | readTallies
  /-- READ_FLAGS (R172). -/
  | readFlags
  /-- CLEAR_FLAGS (R172). -/
  | clearFlags
  /-- SET_MASK (R171). -/
  | setMask
  /-- READ_ARCHIVE (R180). -/
  | readArchive
  /-- ARCHIVE_STATUS (R181). -/
  | archiveStatus
  /-- ERASE_SLOT (R178). -/
  | eraseSlot
  /-- WIPE_ARCHIVE (R179). -/
  | wipeArchive
  /-- CLEAR_TALLIES (R123). -/
  | clearTallies
  /-- PAGE_PROGRAM_COMPLETION (R177): the page in progress is programmed, and reads back right or not. -/
  | pageProgramCompletion (verified : Bool)
  /-- ERASE_COMPLETION (R178): the slot's erase ends, and it verifies blank or not. -/
  | eraseCompletion (blank : Bool)
  /-- SCAN_TIMER_EXPIRY (R25). -/
  | scanTimerExpiry
  /-- CONVERSION_COMPLETION (R18): the conversion in progress ends with this reading of its input, in counts. -/
  | conversionCompletion (raw : Int)
  /-- ENCODER_TRANSITION (R35): the levels of the first and the second encoder line after the change. -/
  | encoderTransition (first second : Bool)
  /-- RESTITCH_STEP_COMPLETION (R66). -/
  | restitchStepCompletion
  /-- FEED_WINDOW_EXPIRY (R45). -/
  | feedWindowExpiry
  /-- PICKUP_EDGE (R101): a rising edge of this drive's pickup, `elapsed` µs after the time the block's clock stands
  at (0: at that very time). -/
  | pickupEdge (d : DriveId) (elapsed : Nat)
  /-- PICKUP_TIMEOUT (R102). -/
  | pickupTimeout (d : DriveId)
  /-- LOOP_TIMER_EXPIRY (R106): one loop pass of this drive. -/
  | loopTimerExpiry (d : DriveId)
  /-- PWM_PERIOD_START (R110). -/
  | pwmPeriodStart
  /-- STALL_CONFIRM_EXPIRY (R114). -/
  | stallConfirmExpiry (w : WheelId)
  /-- REVERSE_TIMER_EXPIRY (R115). -/
  | reverseTimerExpiry (w : WheelId)
  /-- LOADED_TIME_EXPIRY (R120). -/
  | loadedTimeExpiry
  /-- TRAVEL_TIMER_EXPIRY (R133). -/
  | travelTimerExpiry (p : PlateId)
  /-- REPORT_STALE_EXPIRY (R138). -/
  | reportStaleExpiry
  /-- BLOCKAGE_CONFIRM_EXPIRY (R147). -/
  | blockageConfirmExpiry
  /-- RECOVERY_TIMER_EXPIRY (R148). -/
  | recoveryTimerExpiry
  /-- WHEEL_DEMAND_EXPIRY (R157). -/
  | wheelDemandExpiry
deriving DecidableEq, Repr

end Sys2Proof
end

