-- ==== Sys2Proof/Config.lean ====
section
/-! DEFINITION. What the spec leaves open, as constants without a body: a claim that is proved is true whatever they
are. Each is a free value of the assumption log. -/

namespace Sys2Proof

/-- Which of two events that one command brings together is taken first (R47, R94 allow both orders): applied to
`State.draws`. Log entry 1. -/
opaque Config.firstOrder : Nat → Bool

/-- Which of several events of the block's own that are ready together an idle step takes: applied to
`State.draws`. Log entry 2. -/
opaque Config.readyPick : Nat → Nat

/-- The reading of an analog input at a time, by clock (µs) and channel code: what an idle step completes a
conversion with. Log entry 3. -/
opaque Config.analogInput : Nat → Nat → Int

/-- Whether a page programmed at a time reads back right, by clock (µs): for an idle step. Log entry 3. -/
opaque Config.pageVerifies : Nat → Bool

/-- Whether a slot erased at a time verifies blank, by clock (µs): for an idle step. Log entry 3. -/
opaque Config.slotBlank : Nat → Bool

/-- How a readout turns the µs left on a timer into whole ms: it adds this before dividing by 1000 (0 rounds down,
999 rounds up). Log entry 4. -/
opaque Config.leftRounding : Fin 1000

end Sys2Proof
end

