-- ==== Sys2Proof/Machine/State.lean ====
section
/-! DEFINITION. The state of the TC-460: one structure for each block of 00_scope.md section 2.2, the three links, the
reset line and the clock, and the queue of commands waiting. Plain data throughout. `State.reset` is the part right
after COLD. -/

namespace Sys2Proof.Machine

/-- Why the block stops with a fault. It never does: every row of the table is given an effect, or by the rules none,
on every state, so no constructor is needed and the type is empty (safe). -/
inductive Fault
deriving DecidableEq, Repr

/-- Why a command is refused. -/
inductive Refusal where
  /-- Raised by `exec` for a table row that has no meaning in the model yet; no row is left so (safe). -/
  | notModelled (mnemonic : String)
deriving DecidableEq, Repr

/-! ## Panel Controller (01_panels_and_geometry.md) -/

/-- R1. -/
inductive PanelState where
  | idle | active | closing | closed
deriving DecidableEq, Repr

/-- The geometry record in force (R2), in field order. The defaults are the column "After COLD". -/
structure Geometry where
  panelId : Int := 0
  spacing : Int := 200
  start : Int := 0
  design : Int := 0
  length : Int := 2800
  width : Int := 1200
  groundDensity : Int := 2150
  encoderStep : Int := 1000
  pprWheel : Int := 8
  pprPump : Int := 8
  displacement : Int := 800
  settleDistance : Int := 1000
  repassHeight : Int := 500
  tolerance : Int := 30
deriving DecidableEq, Repr

/-! ## Acquisition Unit (02_acquisition_unit.md) -/

/-- The thirteen channels in code order (R16). -/
inductive Channel where
  | rf | zr | ix | iy | tw | pa | pb | ps | pd | saf | sar | sbf | sbr
deriving DecidableEq, Repr

/-- R22, with the active mode of R23. -/
inductive AcqMode where
  | timed | free | off
deriving DecidableEq, Repr

/-- R33. -/
inductive AcqState where
  | off | settling | waiting | scanning
deriving DecidableEq, Repr

/-- A channel's scan value with its SATURATED mark (R19). -/
structure ScanValue where
  value : Int
  saturated : Bool
deriving DecidableEq, Repr

/-- The result of one conversion of the scan in flight (R17, R21). -/
structure Conversion where
  channel : Channel
  result : ScanValue
deriving DecidableEq, Repr

/-- The scan record (R31): thirteen entries in code order, `none` where the list does not name the channel. -/
structure ScanRecord where
  seq : Nat
  valid : Bool
  entries : List (Option ScanValue)
deriving DecidableEq, Repr

/-- The scan list after COLD and WARM (R34): every channel in code order. -/
def defaultScanList : List Channel :=
  [.rf, .zr, .ix, .iy, .tw, .pa, .pb, .ps, .pd, .saf, .sar, .sbf, .sbr]

/-- The Acquisition Unit. The defaults are R34's COLD values, with the settling scan's first conversion of 20 ms
(R18) and the scan timer of 50 ms running from time 0. -/
structure Acquisition where
  activeList : List Channel := defaultScanList
  pendingList : List Channel := defaultScanList
  activeMode : AcqMode := .timed
  pendingMode : AcqMode := .timed
  period : Int := 50
  newPeriod : Int := 50
  state : AcqState := .settling
  scanTimer : Timer := some 50000
  /-- The conversion in progress: its completion time, `none` while the converter is stopped. -/
  conversion : Timer := some 20000
  /-- The results of the scan in flight so far, in list order. -/
  results : List Conversion := []
  zero : Int := 0
  invalidCount : Nat := 0
  fault : Bool := false
  latest : Option ScanRecord := none
  seq : Nat := 0
deriving DecidableEq, Repr

/-! ## Depth Counter and feed governor (03_depth_feed_and_station_crossing.md) -/

/-- R37. -/
inductive RefState where
  | unreferenced | referenced | suspect
deriving DecidableEq, Repr

/-- The feed governor's set of hold reasons (R47), the two causes of ACQUISITION kept apart. The defaults are R49's
set after COLD. -/
structure HoldReasons where
  panel : Bool := true
  reference : Bool := true
  ret : Bool := true
  driveA : Bool := true
  driveB : Bool := true
  wheel : Bool := true
  final : Bool := false
  acqOff : Bool := false
  acqFault : Bool := false
  overfeed : Bool := false
deriving DecidableEq, Repr

/-- The Depth Counter (R50's COLD values). `lineA` and `lineB` are the levels of the two encoder lines. -/
structure DepthCounter where
  lineA : Bool := false
  lineB : Bool := false
  count : Int := 0
  ref : RefState := .unreferenced
  floor : Nat := 0
  final : Bool := false
  windowTimer : Timer := some 2000000
  windowLength : Int := 2000
  windowStart : Int := 0
  lastFeed : Int := 0
  overCount : Int := 0
  overfeed : Bool := false
  reasons : HoldReasons := {}
  feedHold : Bool := true
deriving DecidableEq, Repr

/-! ## Station Table (04_station_table.md) -/

/-- R53: the state of a station record. -/
inductive RecordState where
  | opened | settled
deriving DecidableEq, Repr

/-- The marks of a station record (R54). -/
structure Marks where
  noSample : Bool := false
  inclClamped : Bool := false
  depthSuspect : Bool := false
  gapBridged : Bool := false
  revised : Bool := false
  exceedsX : Bool := false
  exceedsY : Bool := false
deriving DecidableEq, Repr

/-- A station record (R53). -/
structure Station where
  index : Nat
  state : RecordState
  stale : Bool
  meanX : Int
  meanY : Int
  meanT : Int
  samples : Nat
  offsetX : Int
  offsetY : Int
  passCount : Nat
  speedA : Int
  speedB : Int
  differential : Int
  density : Option Int
  marks : Marks
deriving DecidableEq, Repr

/-- The sample accumulator (R55). -/
structure Accumulator where
  sumX : Int := 0
  sumY : Int := 0
  sumT : Int := 0
  count : Nat := 0
  clampedSeen : Bool := false
deriving DecidableEq, Repr

/-- The last valid inclination (R56). -/
structure Inclination where
  ix : ScanValue
  iy : ScanValue
  tw : ScanValue
deriving DecidableEq, Repr

/-- The restitch walker while WALKING: its cursor and the completion time of its step in flight (R63). -/
structure Walker where
  cursor : Nat
  due : Nat
deriving DecidableEq, Repr

/-- The computed part of the deviation summary (R71). -/
structure Summary where
  worstX : Int := 0
  worstXAt : Option Nat := none
  worstY : Int := 0
  worstYAt : Option Nat := none
  exceedsX : Nat := 0
  exceedsY : Nat := 0
deriving DecidableEq, Repr

/-- What a WAITING or PREPARED hold keeps of the request that registered it: first index, count, and the length of
the truncated range (R74, R75). -/
structure Query where
  first : Nat
  count : Nat
  range : Nat
deriving DecidableEq, Repr

/-- A link's held query (R75). The prepared buffer is the list of station entries as they were copied out (R76,
R185). -/
inductive Hold where
  | free
  | waiting (q : Query)
  | prepared (q : Query) (buffer : List (List Byte))
  | cancelled (first count : Nat)
deriving DecidableEq, Repr

/-- The Station Table (R80's COLD values). `walker = none` is IDLE. -/
structure StationTable where
  records : List Station := []
  acc : Accumulator := {}
  lastIncl : Option Inclination := none
  reference : Option Nat := none
  walker : Option Walker := none
  summary : Summary := {}
  firstX : Bool := false
  firstY : Bool := false
  holdCab : Hold := .free
  holdPlant : Hold := .free
  holdRecord : Hold := .free
deriving DecidableEq, Repr

/-! ## Alignment Unit (05_alignment_computation.md) -/

/-- The steer mode (R95). -/
inductive SteerMode where
  | auto | manual
deriving DecidableEq, Repr

/-- R82. -/
inductive AlignStatus where
  | inactive | tracking | holding
deriving DecidableEq, Repr

/-- R81's hold causes. -/
inductive HoldCause where
  | none | unreferenced | notCurrent | inputAbsent | inputSaturated
deriving DecidableEq, Repr

/-- One stroke demand for each plate, in %. -/
structure PlateDemands where
  af : Int := 0
  ar : Int := 0
  bf : Int := 0
  br : Int := 0
deriving DecidableEq, Repr

/-- The stage record of the last TRACKING evaluation in AUTO (R99). -/
structure StageRecord where
  seq : Nat
  delta : Int
  px : Int
  ex : Int
  raw : Int
  py : Int
  ey : Int
  yDem : Int
  tw : Int
  tDem : Int
deriving DecidableEq, Repr

/-- The Alignment Unit (R100). -/
structure Alignment where
  steer : SteerMode := .auto
  diff : Int := 0
  demands : PlateDemands := {}
  status : AlignStatus := .inactive
  cause : HoldCause := .none
  stage : Option StageRecord := none
deriving DecidableEq, Repr

/-! ## Drive Channels (06_drive_channels.md) -/

/-- A direction output. -/
inductive Dir where
  | forward | reverse
deriving DecidableEq, Repr

/-- A direction status (R108). -/
inductive DirStatus where
  | forward | reverse | changing
deriving DecidableEq, Repr

/-- A wheel drive's state (R111). -/
inductive WheelState where
  | stopped | running | stallReverse | stallResume | lockedOut
deriving DecidableEq, Repr

/-- Drive P's state (R118). -/
inductive PumpState where
  | stopped | running
deriving DecidableEq, Repr

/-- One of the seventeen counters with its near-full notice mark (R122). -/
structure Counter where
  value : Nat := 0
  near : Bool := false
deriving DecidableEq, Repr

/-- What every drive channel holds: its loop, its duty and its pickup (R101 to R110). `lastEdge` is the time of the
last accepted edge, from which the capture timer counts; it is `none` after COLD until the first accepted edge, when
R126 gives the capture timer no value (the model's choice: log entry 37). `noSpeed` says that the next accepted edge
gives no speed. -/
structure Motor where
  target : Int := 0
  working : Int := 0
  integ : Int := 0
  computed : Int := 0
  applied : Int := 0
  speed : Int := 0
  lastEdge : Option Nat := none
  noSpeed : Bool := true
  pickupTimer : Timer := none
  loopTimer : Timer := some 20000
  rev : Counter := {}
deriving DecidableEq, Repr

/-- A wheel drive (R126's COLD values). The stall list holds times of the millisecond clock, oldest first (R114); the
band tallies are six, band 1 first (R121). -/
structure WheelDrive where
  motor : Motor := {}
  state : WheelState := .stopped
  dirOut : Dir := .forward
  dirStatus : DirStatus := .forward
  stalls : List Nat := []
  confirm : Timer := none
  reverseTimer : Timer := none
  loaded : Bool := false
  loadedTime : Counter := {}
  bands : List Counter := [{}, {}, {}, {}, {}, {}]
deriving DecidableEq, Repr

/-- Drive P (R118). Its direction output is FORWARD always, so it is no field. -/
structure PumpDrive where
  motor : Motor := {}
  state : PumpState := .stopped
deriving DecidableEq, Repr

/-- The Drive Channels, with the PWM period (R110) and the loaded-time timer (R120). -/
structure Drives where
  a : WheelDrive := {}
  b : WheelDrive := {}
  p : PumpDrive := {}
  pwmTimer : Timer := some 4000
  loadedTimer : Timer := some 100000
deriving DecidableEq, Repr

/-! ## Plate Drive (07_steering_plates.md) -/

/-- R127. -/
inductive PlateState where
  | hold | extending | retracting | fault
deriving DecidableEq, Repr

/-- One plate with its two outputs (R136's COLD values). -/
structure Plate where
  state : PlateState := .hold
  extend : Bool := false
  retract : Bool := false
  travel : Timer := none
  lastStroke : Option Int := none
  effective : Int := 0
deriving DecidableEq, Repr

/-- The causes of the retract-all override (R129): it is active while one holds. After COLD: PANEL. -/
structure Override where
  panel : Bool := true
  lift : Bool := false
  blocked : Bool := false
deriving DecidableEq, Repr

/-- The Plate Drive. -/
structure Plates where
  af : Plate := {}
  ar : Plate := {}
  bf : Plate := {}
  br : Plate := {}
  override : Override := {}
deriving DecidableEq, Repr

/-! ## Return Balance Unit (08_return_balance.md) -/

/-- R143. -/
inductive ReturnState where
  | stopped | priming | normal | blind | congested | blocked
deriving DecidableEq, Repr

/-- A plant report as clamped (R137). -/
structure Report where
  flow : Int
  returnDensity : Int
  supplyDensity : Int
deriving DecidableEq, Repr

/-- The Return Balance Unit (R152's COLD values). -/
structure ReturnBalance where
  state : ReturnState := .stopped
  backlog : Int := 0
  report : Option Report := none
  fresh : Bool := false
  staleTimer : Timer := none
  capacity : Int := 0
  allowance : Int := 0
  limit : Int := 0
  confirm : Timer := none
  recovery : Timer := none
deriving DecidableEq, Repr

/-! ## Demand Table (09_demand_table_and_authority.md) -/

/-- The WHEEL group with its defaults (R153). -/
structure WheelGroup where
  baseSpeed : Int := 0
  direction : Dir := .forward
  steer : SteerMode := .auto
  manualDiff : Int := 0
  manual : PlateDemands := {}
  targetX : Int := 0
  targetY : Int := 0
deriving DecidableEq, Repr

/-- The FEED group with its defaults (R153). -/
structure FeedGroup where
  ceiling : Int := 300
  tolerance : Int := 20
  overfeedWindows : Int := 2
  window : Int := 2000
  liftThreshold : Int := 60
deriving DecidableEq, Repr

/-- The TUNING group with its defaults (R97, R124, R130, R133). -/
structure TuningGroup where
  dbX : Int := 300
  dbY : Int := 300
  gX : Int := 20
  gY : Int := 10
  dMax : Int := 60
  yMax : Int := 40
  rStep : Int := 5
  lookAhead : Int := 1000
  dbT : Int := 10
  gT : Int := 2
  tMax : Int := 30
  baseStroke : Int := 10
  plateBand : Int := 3
  travelTime : Int := 8000
  stallPressure : Int := 32000
  stallSpeed : Int := 20
  confirmTime : Int := 800
  reverseSpeed : Int := 80
  reverseTime : Int := 3000
  lockoutWindow : Int := 60
  companionSpeed : Int := 50
  congestionSpeed : Int := 120
  rampStep : Int := 5
  kf : Int := 250
  kp : Int := 20
  ki : Int := 4
  loopPeriod : Int := 20
  pickupTimeout : Int := 2000
deriving DecidableEq, Repr

/-- The PUMP group with its defaults (R153, R150). -/
structure PumpGroup where
  flow : Int := 0
  densityLimit : Int := 1250
  margin : Int := 80
  blindAllowance : Int := 30
  staleTime : Int := 5000
  qMin : Int := 2000
  bHi : Int := 200000
  bLo : Int := 100000
  psBlock : Int := 80
  pdBlock : Int := 1800
  psHysteresis : Int := 20
  pdHysteresis : Int := 100
  confirmTime : Int := 1500
  recoveryTime : Int := 3000
deriving DecidableEq, Repr

/-- R158. -/
inductive Owner where
  | plant | cab
deriving DecidableEq, Repr

/-- The Demand Table (R162's COLD values). -/
structure DemandTable where
  wheel : WheelGroup := {}
  feed : FeedGroup := {}
  tuning : TuningGroup := {}
  pump : PumpGroup := {}
  owner : Owner := .plant
  releasedPlant : Bool := false
  releasedCab : Bool := false
  life : Timer := none
  expired : Bool := true
deriving DecidableEq, Repr

/-! ## Link Interface (10_master_links.md) -/

/-- The seventeen event flags in bit order (R170, 12_frame_and_record_formats.md 12.3). -/
inductive Flag where
  | driveStall | driveLockout | returnState | feedHold | finalDepth | depthFault | tolerance | tallyNearFull
  | archiveDone | archiveFault | wheelExpired | linkSilent | sensorFault | scanOverrun | plateFault | ownerChange
  | linkError
deriving DecidableEq, Repr

/-- A flag set, or a mask: bit 0 is DRIVE_STALL (12.3). -/
abbrev FlagSet := BitVec 17

/-- A valid request frame waiting for the engine (R165). -/
structure Frame where
  seq : Byte
  kind : Byte
  payload : List Byte
deriving DecidableEq, Repr

/-- R168. -/
inductive ReplyOutcome where
  | done | accepted | pending | ready | noData | refused
deriving DecidableEq, Repr

/-- R168. -/
inductive Reason where
  | none | notPermitted | wrongState | badValue | badLength | notOwner | notReleased | busy | heldOther | noSlot
  | unknown
deriving DecidableEq, Repr

/-- The marks of a reply (R168). -/
structure ReplyMarks where
  alert : Bool
  overrun : Bool
  clamped : Bool
  truncated : Bool
deriving DecidableEq, Repr

/-- A reply built and not yet sent (R168). -/
structure Reply where
  seq : Byte
  kind : Byte
  outcome : ReplyOutcome
  reason : Reason
  marks : ReplyMarks
  payload : List Byte
deriving DecidableEq, Repr

/-- One link (R174's COLD values). `receiver` is `none` while idle, otherwise the bytes after the marker so far;
`bytePause` runs while a frame is in progress, and expires when more than 10 ms have passed since its last byte.
`silence = some 3000000` is the silence timer loaded with 3,000 ms. `lastSent` is the model's own: the reply frame,
byte for byte, that last left on the link. -/
structure LinkState where
  receiver : Option (List Byte) := none
  bytePause : Timer := none
  rx : List Frame := []
  replies : List Reply := []
  overrun : Bool := false
  silent : Bool := false
  silence : Timer := some 3000000
  flags : FlagSet := 0
  mask : FlagSet := 0
  lastSent : Option (List Byte) := none
deriving DecidableEq, Repr

/-- A level-0 link, the holder of the arbiter's turn (R166). -/
inductive Turn where
  | cab | plant
deriving DecidableEq, Repr

/-- The Link Interface. `restarting`: an accepted RESTART has been answered and the WARM has not yet come, so the
engine takes no request (R15). -/
structure Links where
  cab : LinkState := {}
  plant : LinkState := {}
  record : LinkState := {}
  turn : Turn := .cab
  levelZeroGrants : Nat := 0
  restarting : Bool := false
deriving DecidableEq, Repr

/-! ## Panel Archive (11_panel_archive.md) -/

/-- R175. -/
inductive SlotState where
  | empty | writing | held | released | erasing | faulty
deriving DecidableEq, Repr

/-- One slot: its directory entry and the pages programmed so far (R175, R176). Bit p of `readMarks` is the read mark
of page p. -/
structure Slot where
  state : SlotState := .empty
  panelId : Option Int := none
  pageCount : Option Nat := none
  readMarks : BitVec 65 := 0
  pages : List (List Byte) := []
deriving DecidableEq, Repr

/-- The operation engine (R175): IDLE, or the operation in flight with its progress. A close write is first only
reserved (R177); while it programs, `page` is the page in progress, `image` the pages taken at the start of the write
stage (R10) and `due` the completion of the page program. A wipe holds the slot being erased and the slots still to
erase after it (R179). -/
inductive Engine where
  | idle
  | reserved (slot : Nat)
  | programming (slot page : Nat) (image : List (List Byte)) (due : Nat)
  | erase (slot : Nat) (due : Nat)
  | wipe (slot : Nat) (rest : List Nat) (due : Nat)
deriving DecidableEq, Repr

/-- The Panel Archive. Eight slots, numbered from 0. -/
structure Archive where
  slots : List Slot := [{}, {}, {}, {}, {}, {}, {}, {}]
  engine : Engine := .idle
deriving DecidableEq, Repr

/-! ## The machine -/

/-- The whole block. `resetLine`: the reset line is asserted. `clock`: µs since COLD took effect; the millisecond
clock of R114 is its whole milliseconds. `draws` is the model's own: how many free order choices have been taken (log
entry 1). `pending`: the commands waiting, first in, first out. -/
structure State where
  resetLine : Bool := false
  clock : Nat := 0
  panel : PanelState := .idle
  geometry : Geometry := {}
  acq : Acquisition := {}
  depth : DepthCounter := {}
  table : StationTable := {}
  align : Alignment := {}
  drives : Drives := {}
  plates : Plates := {}
  ret : ReturnBalance := {}
  demand : DemandTable := {}
  links : Links := {}
  archive : Archive := {}
  draws : Nat := 0
  pending : List Instr := []
deriving DecidableEq, Repr

/-- The part right after COLD at power-on: every field at the value its chapter's reset table gives (R2, R34, R50,
R80, R100, R126, R136, R152, R162, R174, R182), all of them written as the defaults above. -/
def State.reset : State := {}

end Sys2Proof.Machine
end

