-- ==== Sys2Proof/Machine/Flags.lean ====
section
/-! DEFINITION. Access to the three links, and the event flags: raising, ALERT (R170, R171). -/

namespace Sys2Proof.Machine

/-- One link's state. -/
def State.link (s : State) : Link → LinkState
  | .cab => s.links.cab
  | .plant => s.links.plant
  | .record => s.links.record

/-- Replace one link's state. -/
def State.setLink (s : State) (l : Link) (x : LinkState) : State :=
  match l with
  | .cab => { s with links := { s.links with cab := x } }
  | .plant => { s with links := { s.links with plant := x } }
  | .record => { s with links := { s.links with record := x } }

/-- The bit of a flag in a flag set or mask (12.3). -/
def Flag.bit : Flag → Nat
  | .driveStall => 0
  | .driveLockout => 1
  | .returnState => 2
  | .feedHold => 3
  | .finalDepth => 4
  | .depthFault => 5
  | .tolerance => 6
  | .tallyNearFull => 7
  | .archiveDone => 8
  | .archiveFault => 9
  | .wheelExpired => 10
  | .linkSilent => 11
  | .sensorFault => 12
  | .scanOverrun => 13
  | .plateFault => 14
  | .ownerChange => 15
  | .linkError => 16

/-- A flag set that holds one flag. -/
def Flag.only (f : Flag) : FlagSet := 1#17 <<< f.bit

/-- Set one flag; a flag that is set stays set (R170). -/
def FlagSet.with (fs : FlagSet) (f : Flag) : FlagSet := fs ||| f.only

/-- Whether a flag is set. -/
def FlagSet.has (fs : FlagSet) (f : Flag) : Bool := fs.getLsbD f.bit

/-- Set a flag in one link's set only: LINK_ERROR (R170). -/
def LinkState.raise (x : LinkState) (f : Flag) : LinkState := { x with flags := FlagSet.with x.flags f }

/-- Raise a shared flag: it is set in all three flag sets (R170). -/
def raise (f : Flag) (s : State) : State :=
  { s with links := { s.links with
      cab := s.links.cab.raise f
      plant := s.links.plant.raise f
      record := s.links.record.raise f } }

/-- Raise a shared flag when a condition holds. -/
def raiseIf (c : Bool) (f : Flag) (s : State) : State := if c then raise f s else s

/-- ALERT: one or more flags of the link's set are set and unmasked (R171). -/
def LinkState.alert (x : LinkState) : Bool := x.flags &&& ~~~x.mask != 0

end Sys2Proof.Machine
end

