-- ==== Sys2Proof/Machine/Operands.lean ====
section
/-! DEFINITION. The operands of the requests and the fields of the replies: bytes and integers in the byte order of
the links (most significant byte first, 00_scope.md 5.4; signed fields are two's complement, 12), the codes of the
enumerations and bit sets (12.3), and the check of a frame (R164). -/

namespace Sys2Proof.Machine

/-! ## Bytes and integers -/

/-- The unsigned value of a field. -/
def unsignedOf (bytes : List Byte) : Int := bytes.foldl (fun acc b => acc * 256 + b.toNat) 0

/-- The signed value of a field. -/
def signedOf (bytes : List Byte) : Int :=
  let u := unsignedOf bytes
  if 2 * u < 256 ^ bytes.length then u else u - 256 ^ bytes.length

/-- An integer as a field of `n` bytes, signed or unsigned. -/
def field : Nat → Int → List Byte
  | 0, _ => []
  | n + 1, v => BitVec.ofInt 8 (v / 256 ^ n) :: field n v

/-- The bytes of a payload from an offset. -/
def slice (bytes : List Byte) (offset size : Nat) : List Byte := (bytes.drop offset).take size

/-- The unsigned field of a payload at an offset. -/
def unsignedAt (bytes : List Byte) (offset size : Nat) : Int := unsignedOf (slice bytes offset size)

/-- The signed field of a payload at an offset. -/
def signedAt (bytes : List Byte) (offset size : Nat) : Int := signedOf (slice bytes offset size)

/-- A truth value as a byte or a bit: 1 when it holds (12.3: "a bit is set when its member is present"; VALID is 1). -/
def bit (b : Bool) : Int := if b then 1 else 0

/-- A list of truth values as a bit set, bit 0 first. -/
def bitSet : List Bool → Int
  | [] => 0
  | b :: bs => bit b + 2 * bitSet bs

/-- An optional station index as a two-byte field: 0xFFFF when absent (R184). -/
def indexField : Option Nat → List Byte
  | some k => field 2 k
  | none => field 2 0xFFFF

/-! ## The check (R164) -/

/-- One bit of the CRC register: shift left, and reduce by x^16 + x^12 + x^5 + 1 when the top bit leaves. -/
def crcShift (r : BitVec 16) : BitVec 16 := if r.msb then (r <<< 1) ^^^ 0x1021#16 else r <<< 1

/-- One byte into the CRC register, most significant bit first. -/
def crcByte (r : BitVec 16) (b : Byte) : BitVec 16 :=
  let r := r ^^^ ((b.setWidth 16) <<< 8)
  crcShift (crcShift (crcShift (crcShift (crcShift (crcShift (crcShift (crcShift r)))))))

/-- The CRC-16 of a run of bytes, the register starting at all ones. -/
def crc (bytes : List Byte) : BitVec 16 := bytes.foldl crcByte 0xFFFF#16

/-- The two check bytes, most significant first. -/
def checkBytes (bytes : List Byte) : List Byte :=
  let c := crc bytes
  [(c >>> 8).setWidth 8, c.setWidth 8]

/-- The marker that starts every frame (R163). -/
def marker : Byte := 0xA5

/-- A request frame as a master sends it (12.1). -/
def requestBytes (f : Frame) : List Byte :=
  let body := f.seq :: f.kind :: BitVec.ofNat 8 f.payload.length :: f.payload
  marker :: body ++ checkBytes body

/-! ## Codes (12.3) -/

def Channel.code : Channel → Nat
  | .rf => 0
  | .zr => 1
  | .ix => 2
  | .iy => 3
  | .tw => 4
  | .pa => 5
  | .pb => 6
  | .ps => 7
  | .pd => 8
  | .saf => 9
  | .sar => 10
  | .sbf => 11
  | .sbr => 12

/-- The channel of a code; 13 to 255 name none (R16). -/
def channelOf (code : Byte) : Option Channel := defaultScanList[code.toNat]?

def PanelState.code : PanelState → Int
  | .idle => 0
  | .active => 1
  | .closing => 2
  | .closed => 3

def RefState.code : RefState → Int
  | .unreferenced => 0
  | .referenced => 1
  | .suspect => 2

def AcqState.code : AcqState → Int
  | .off => 0
  | .settling => 1
  | .waiting => 2
  | .scanning => 3

def AcqMode.code : AcqMode → Int
  | .timed => 0
  | .free => 1
  | .off => 2

/-- The acquisition mode of a code (R22 check 4). -/
def acqModeOf (code : Byte) : Option AcqMode :=
  if code = 0 then some .timed else if code = 1 then some .free else if code = 2 then some .off else none

/-- The restart choice of a code (R22 check 4). -/
def restartChoiceOf (code : Byte) : Option Bool :=
  if code = 0 then some false else if code = 1 then some true else none

def Dir.code : Dir → Int
  | .forward => 0
  | .reverse => 1

/-- The direction of a value of the WHEEL group (R154 check 4). -/
def dirOf (v : Int) : Option Dir := if v = 0 then some .forward else if v = 1 then some .reverse else none

def DirStatus.code : DirStatus → Int
  | .forward => 0
  | .reverse => 1
  | .changing => 2

def SteerMode.code : SteerMode → Int
  | .auto => 0
  | .manual => 1

/-- The steer mode of a value of the WHEEL group (R154 check 4). -/
def steerOf (v : Int) : Option SteerMode := if v = 0 then some .auto else if v = 1 then some .manual else none

def AlignStatus.code : AlignStatus → Int
  | .inactive => 0
  | .tracking => 1
  | .holding => 2

def HoldCause.code : HoldCause → Int
  | .none => 0
  | .unreferenced => 1
  | .notCurrent => 2
  | .inputAbsent => 3
  | .inputSaturated => 4

def WheelState.code : WheelState → Int
  | .stopped => 0
  | .running => 1
  | .stallReverse => 2
  | .stallResume => 3
  | .lockedOut => 4

def PumpState.code : PumpState → Int
  | .stopped => 0
  | .running => 1

/-- The wheel drive that RESTART DRIVE names: P and the codes above it name none (R117). -/
def wheelOf (code : Byte) : Option WheelId := if code = 0 then some .a else if code = 1 then some .b else none

def PlateState.code : PlateState → Int
  | .hold => 0
  | .extending => 1
  | .retracting => 2
  | .fault => 3

/-- The plates that CLEAR PLATE FAULT names: one, or all four (R134, 12.2). -/
def platesOf (code : Byte) : Option (List PlateId) :=
  if code = 0 then some [.af]
  else if code = 1 then some [.ar]
  else if code = 2 then some [.bf]
  else if code = 3 then some [.br]
  else if code = 4 then some [.af, .ar, .bf, .br]
  else none

def ReturnState.code : ReturnState → Int
  | .stopped => 0
  | .priming => 1
  | .normal => 2
  | .blind => 3
  | .congested => 4
  | .blocked => 5

def Hold.code : Hold → Int
  | .free => 0
  | .waiting _ => 1
  | .prepared _ _ => 2
  | .cancelled _ _ => 3

def Owner.code : Owner → Int
  | .plant => 0
  | .cab => 1

def SlotState.code : SlotState → Int
  | .empty => 0
  | .writing => 1
  | .held => 2
  | .released => 3
  | .erasing => 4
  | .faulty => 5

def Engine.code : Engine → Int
  | .idle => 0
  | .reserved _ => 1
  | .programming _ _ _ _ => 1
  | .erase _ _ => 2
  | .wipe _ _ _ => 3

def ReplyOutcome.code : ReplyOutcome → Int
  | .done => 0
  | .accepted => 1
  | .pending => 2
  | .ready => 3
  | .noData => 4
  | .refused => 5

def Reason.code : Reason → Int
  | .none => 0
  | .notPermitted => 1
  | .wrongState => 2
  | .badValue => 3
  | .badLength => 4
  | .notOwner => 5
  | .notReleased => 6
  | .busy => 7
  | .heldOther => 8
  | .noSlot => 9
  | .unknown => 10

/-- The hold reasons of READ STATUS; the two causes of ACQUISITION are one member (R47, 12.3). -/
def HoldReasons.bits (r : HoldReasons) : Int :=
  bitSet [r.panel, r.reference, r.ret, r.driveA, r.driveB, r.wheel, r.final, r.acqOff || r.acqFault, r.overfeed]

def Marks.bits (m : Marks) : Int :=
  bitSet [m.noSample, m.inclClamped, m.depthSuspect, m.gapBridged, m.revised, m.exceedsX, m.exceedsY]

def ReplyMarks.bits (m : ReplyMarks) : Int := bitSet [m.alert, m.overrun, m.clamped, m.truncated]

/-- A flag set or mask as three bytes (12.3). -/
def flagField (fs : FlagSet) : List Byte := field 3 fs.toNat

/-- The flag set of a three-byte field; bits 17 to 23 name nothing (R183). -/
def flagsOf (bytes : List Byte) : FlagSet := BitVec.ofInt 17 (unsignedOf bytes)

/-! ## Replies -/

/-- A reply frame as the part sends it: marker, sequence, kind, outcome, reason, marks, length, payload, check (R168,
12.1). -/
def replyBytes (r : Reply) : List Byte :=
  let body := r.seq :: r.kind :: (field 1 r.outcome.code ++ field 1 r.reason.code ++ field 1 r.marks.bits
    ++ field 2 r.payload.length ++ r.payload)
  marker :: body ++ checkBytes body

/-! ## The geometry record (12.4) -/

/-- The number of bytes of a geometry record. -/
def geometryBytes : Nat := 31

/-- Read a geometry record. -/
def geometryOf (p : List Byte) : Geometry where
  panelId := unsignedAt p 0 4
  spacing := unsignedAt p 4 2
  start := unsignedAt p 6 4
  design := unsignedAt p 10 4
  length := unsignedAt p 14 2
  width := unsignedAt p 16 2
  groundDensity := unsignedAt p 18 2
  encoderStep := unsignedAt p 20 2
  pprWheel := unsignedAt p 22 1
  pprPump := unsignedAt p 23 1
  displacement := unsignedAt p 24 2
  settleDistance := unsignedAt p 26 2
  repassHeight := unsignedAt p 28 2
  tolerance := unsignedAt p 30 1

/-- Lay out a geometry record. -/
def geometryField (g : Geometry) : List Byte :=
  field 4 g.panelId ++ field 2 g.spacing ++ field 4 g.start ++ field 4 g.design ++ field 2 g.length
  ++ field 2 g.width ++ field 2 g.groundDensity ++ field 2 g.encoderStep ++ field 1 g.pprWheel ++ field 1 g.pprPump
  ++ field 2 g.displacement ++ field 2 g.settleDistance ++ field 2 g.repassHeight ++ field 1 g.tolerance

/-! ## Group writes (R154) -/

/-- The entries of a group write: field number and signed value, five bytes each, after the count. -/
def entriesOf : Nat → List Byte → List (Nat × Int)
  | 0, _ => []
  | k + 1, p => ((p.headD 0).toNat, signedOf ((p.drop 1).take 4)) :: entriesOf k (p.drop 5)

end Sys2Proof.Machine
end

