-- ==== Sys2Proof/Machine/Ops.lean ====
section
/-! DEFINITION. The operations the blocks share: exact arithmetic with the roundings the rules name, timers and the
clock, the feed governor, the request engine, and the guard that holds the block while the reset line is asserted. -/

namespace Sys2Proof.Machine

/-! ## Arithmetic (00_scope.md 5.3) -/

/-- Clamp to a range. -/
def clamp (lo hi x : Int) : Int := if x < lo then lo else if hi < x then hi else x

/-- Division rounded half away from zero; the divisor is positive. -/
def roundAway (a b : Int) : Int := if 0 ≤ a then (2 * a + b) / (2 * b) else -((2 * (-a) + b) / (2 * b))

/-- Move toward a goal by at most a step (R90, R107). -/
def stepToward (x goal step : Int) : Int :=
  if |goal - x| ≤ step then goal else if x < goal then x + step else x - step

/-- The value with the sign of another: negative when that is negative. -/
def withSign (sign x : Int) : Int := if sign < 0 then -x else x

/-- An offset in nm as it leaves the part, in 0.1 mm (R185). -/
def reportedOffset (nm : Int) : Int := clamp (-32767) 32767 (roundAway nm 100000)

/-- The sum of a list divided by its length, rounded half away from zero (R19). -/
def meanOf (xs : List Int) : Int := roundAway xs.sum xs.length

/-! ## Geometry (R4, R5) -/

/-- The station count N. -/
def Geometry.stations (g : Geometry) : Nat := ((g.design - g.start) / g.spacing).toNat + 1

/-- The depth of station k, in mm. -/
def Geometry.depthOf (g : Geometry) (k : Nat) : Int := g.start + k * g.spacing

/-- The plan area, in cm². -/
def Geometry.area (g : Geometry) : Int := g.length * g.width / 100

/-! ## Time -/

/-- The expiry of a timer loaded now with a time in ms. -/
def State.inMs (s : State) (ms : Int) : Nat := s.clock + ms.toNat * 1000

/-- The millisecond clock (R114). -/
def State.nowMs (s : State) : Nat := s.clock / 1000

/-- Take an event that comes when the clock stands at `due`: that time has then been reached. -/
def State.reach (s : State) (due : Nat) : State := { s with clock := max s.clock due }

/-- The time left on a timer in ms, 0 while it is stopped (12.5). Its rounding is free (log entry 4). -/
def State.leftMs (s : State) (t : Timer) : Int :=
  match t with
  | none => 0
  | some due => (((due - s.clock) + Config.leftRounding.val) / 1000 : Nat)

/-- While the reset line is asserted the part holds every block at its COLD values and takes nothing (R14). -/
def unlessReset (s : State) (f : State → State) : State := if s.resetLine then s else f s

/-- An expiry or completion: it is taken when its timer runs, at the timer's time; otherwise it does not happen. -/
def onExpiry (t : Timer) (s : State) (f : State → State) : State :=
  match t with
  | some due => f (s.reach due)
  | none => s

/-- The free order choice of this moment; log entry 1. -/
def State.choice (s : State) : Bool := Config.firstOrder s.draws

/-- Count a free choice as taken. -/
def State.drawn (s : State) : State := { s with draws := s.draws + 1 }

/-! ## The feed governor (R47, R48) -/

/-- Whether the set of hold reasons holds a member. -/
def HoldReasons.any (r : HoldReasons) : Bool :=
  r.panel || r.reference || r.ret || r.driveA || r.driveB || r.wheel || r.final || r.acqOff || r.acqFault
    || r.overfeed

/-- A change of the set of reasons: the line's level is decided again, and FEED_HOLD is raised when it changes. -/
def govern (change : HoldReasons → HoldReasons) (s : State) : State :=
  let r := change s.depth.reasons
  raiseIf (r.any != s.depth.feedHold) .feedHold
    { s with depth := { s.depth with reasons := r, feedHold := r.any } }

/-! ## Demand groups -/

/-- The link that owns the PUMP group (R153). -/
def DemandTable.pumpLink (d : DemandTable) : Link :=
  match d.owner with
  | .plant => .plant
  | .cab => .cab

/-! ## The request arbiter (R166) -/

/-- A head request that the arbiter may grant: the link's reply queue is not full. -/
def LinkState.waits (x : LinkState) : Bool := !x.rx.isEmpty && x.replies.length < 4

/-- The link whose head request the arbiter grants now, if any: none while the engine waits for a WARM (R15). -/
def grantLink (n : Links) : Option Link :=
  if n.restarting then none
  else if n.record.waits && ((!n.cab.waits && !n.plant.waits) || 4 ≤ n.levelZeroGrants) then some .record
  else if n.cab.waits && (!n.plant.waits || n.turn = .cab) then some .cab
  else if n.plant.waits then some .plant
  else none

/-- The grant: the link and its head request. -/
def grant (s : State) : Option (Link × Frame) :=
  match grantLink s.links with
  | none => none
  | some l => (s.link l).rx.head?.map fun f => (l, f)

/-- What the arbiter remembers of a grant: the turn passes from a level-0 link to the other, and level-0 grants are
counted while a Record request waits. -/
def noteGrant (l : Link) (n : Links) : Links :=
  match l with
  | .cab => { n with turn := .plant, levelZeroGrants := n.levelZeroGrants + (if n.record.waits then 1 else 0) }
  | .plant => { n with turn := .cab, levelZeroGrants := n.levelZeroGrants + (if n.record.waits then 1 else 0) }
  | .record => { n with levelZeroGrants := 0 }

/-- The grant takes the head request off its receive queue. -/
def takeHead (l : Link) (s : State) : State :=
  let s := { s with links := noteGrant l s.links }
  s.setLink l { s.link l with rx := (s.link l).rx.tail }

/-! ## The request engine (R167, R168) -/

/-- What the owning block answers, from which the engine builds the reply. -/
structure Answer where
  outcome : ReplyOutcome
  reason : Reason := .none
  clamped : Bool := false
  truncated : Bool := false
  payload : List Byte := []
deriving DecidableEq, Repr

/-- A refusal. -/
def refusal (r : Reason) (payload : List Byte := []) : Answer :=
  { outcome := .refused, reason := r, payload := payload }

/-- DONE with a payload. -/
def doneWith (payload : List Byte) : Answer := { outcome := .done, payload := payload }

/-- Build the reply to a request and put it at the tail of its link's reply queue. ALERT is judged now; OVERRUN is
the link's overrun mark, which the reply clears. -/
def buildReply (l : Link) (f : Frame) (a : Answer) (s : State) : State :=
  let x := s.link l
  let r : Reply :=
    { seq := f.seq, kind := f.kind, outcome := a.outcome, reason := a.reason
      marks := { alert := x.alert, overrun := x.overrun, clamped := a.clamped, truncated := a.truncated }
      payload := a.payload }
  s.setLink l { x with replies := x.replies ++ [r], overrun := false }

/-- Which links the request table allows a request from (R167). -/
inductive Access where
  | cabOnly | plantOnly | recordOnly | pumpOwner | anyLink
deriving DecidableEq, Repr

/-- The engine's judgement of the link, before the request goes to its block. -/
def linkRefusal (acc : Access) (s : State) (l : Link) : Option Reason :=
  match acc with
  | .anyLink => none
  | .cabOnly => if l = .cab then none else some .notPermitted
  | .plantOnly => if l = .plant then none else some .notPermitted
  | .recordOnly => if l = .record then none else some .notPermitted
  | .pumpOwner =>
    if l = .record then some .notPermitted else if l = s.demand.pumpLink then none else some .notOwner

/-- The request engine takes the granted request: it judges the link, has the owning block answer, and builds the
reply. `body` is the owning block's rule: it is given the link, the payload and the state. -/
def serve (acc : Access) (l : Link) (f : Frame) (body : Link → List Byte → State → State × Answer) (s : State) :
    State :=
  let s := takeHead l s
  match linkRefusal acc s l with
  | some r => buildReply l f (refusal r) s
  | none =>
    let (s, a) := body l f.payload s
    buildReply l f a s

/-- A request row: the engine takes the arbiter's grant when the granted request is of this kind, and otherwise the
event does not happen. -/
def request (kind : Byte) (acc : Access) (body : Link → List Byte → State → State × Answer) (s : State) : State :=
  unlessReset s fun s =>
    match grant s with
    | some (l, f) => if f.kind = kind then serve acc l f body s else s
    | none => s

/-- The check of requests with an empty payload: a payload that is not empty is refused BAD_LENGTH. -/
def emptyPayload (body : Link → State → State × Answer) (l : Link) (p : List Byte) (s : State) : State × Answer :=
  if p.isEmpty then body l s else (s, refusal .badLength)

/-- The check of requests with a payload of one length. -/
def payloadOf (n : Nat) (body : Link → List Byte → State → State × Answer) (l : Link) (p : List Byte) (s : State) :
    State × Answer :=
  if p.length = n then body l p s else (s, refusal .badLength)

end Sys2Proof.Machine
end

