-- ==== Sys2Proof/Machine/Station.lean ====
section
/-! DEFINITION. The Station Table: records, accumulator, offsets, restitch walker, settlement, tolerance, summary,
held queries (04_station_table.md), and the steps READ_STATIONS, CANCEL_HOLD. The completion of a restitch step is
in Panel.lean, because it may end the walk stage of CLOSING (R10). -/

namespace Sys2Proof.Machine

/-! ## Looking up records (R52) -/

/-- The record of a station, if present. -/
def findStation (rs : List Station) (k : Nat) : Option Station := rs.find? fun r => r.index = k

/-- Insert a record in index order, or replace the record of its index (R52, R59). -/
def putStation (r : Station) : List Station → List Station
  | [] => [r]
  | x :: xs =>
    if r.index < x.index then r :: x :: xs
    else if r.index = x.index then r :: xs
    else x :: putStation r xs

/-- The present record with the greatest index below k (R61). -/
def predecessor (rs : List Station) (k : Nat) : Option Station := (rs.filter fun r => r.index < k).getLast?

/-- The least present index above k (R64). -/
def nextAbove (rs : List Station) (k : Nat) : Option Nat := (rs.find? fun r => k < r.index).map (·.index)

/-! ## Offsets (R61) -/

/-- The offset of station k on one axis, from the predecessor's offset on that axis and its own mean. -/
def offsetFrom (g : Geometry) (pred : Option Station) (axis : Station → Int) (k : Nat) (mean : Int) : Int :=
  if k = 0 then 0
  else match pred with
    | some p => axis p + mean * 25 * g.spacing * ((k : Int) - p.index)
    | none => mean * 25 * g.spacing * k

/-- GAP_BRIDGED of station k. -/
def gapOf (pred : Option Station) (k : Nat) : Bool :=
  k != 0 && match pred with
    | some p => 1 < k - p.index
    | none => true

/-- A record with its offsets and GAP_BRIDGED computed from the table as it stands (R61). -/
def withOffset (g : Geometry) (rs : List Station) (r : Station) : Station :=
  let pred := predecessor rs r.index
  { r with
    offsetX := offsetFrom g pred (·.offsetX) r.index r.meanX
    offsetY := offsetFrom g pred (·.offsetY) r.index r.meanY
    marks := { r.marks with gapBridged := gapOf pred r.index } }

/-! ## Tolerance and summary (R69 to R71) -/

/-- The tolerance limit of station k, in nm (R69). -/
def limitOf (g : Geometry) (k : Nat) : Int := g.depthOf k * g.tolerance * 100

/-- The exceedance marks that the tolerance check gives a record (R70). -/
def judged (g : Geometry) (r : Station) : Station :=
  { r with marks := { r.marks with
      exceedsX := limitOf g r.index < |r.offsetX|
      exceedsY := limitOf g r.index < |r.offsetY| } }

/-- Whether a record counts in the deviation summary (R71). -/
def Station.qualifies (r : Station) : Bool := r.state = .settled && !r.stale

/-- The worst magnitude on an axis and its index, the lower index where two share it (R71). -/
def worstOf (axis : Station → Int) : List Station → Int × Option Nat
  | [] => (0, none)
  | r :: rs =>
    match worstOf axis rs with
    | (w, some k) => if w ≤ |axis r| then (|axis r|, some r.index) else (w, some k)
    | (_, none) => (|axis r|, some r.index)

/-- The deviation summary of a table (R71). -/
def summaryOf (rs : List Station) : Summary :=
  let q := rs.filter Station.qualifies
  let x := worstOf (·.offsetX) q
  let y := worstOf (·.offsetY) q
  { worstX := x.1
    worstXAt := x.2
    worstY := y.1
    worstYAt := y.2
    exceedsX := (q.filter fun r => r.marks.exceedsX).length
    exceedsY := (q.filter fun r => r.marks.exceedsY).length }

/-- Put the records in place and recompute the summary (R71). -/
def setRecords (rs : List Station) (s : State) : State :=
  { s with table := { s.table with records := rs, summary := summaryOf rs } }

/-- Put a judged record in place: TOLERANCE is raised at the first exceedance of the panel on each axis (R70). -/
def applyTolerance (r : Station) (s : State) : State :=
  let newX := r.marks.exceedsX && !s.table.firstX
  let newY := r.marks.exceedsY && !s.table.firstY
  raiseIf (newX || newY) .tolerance
    { s with table := { s.table with
        firstX := s.table.firstX || newX
        firstY := s.table.firstY || newY } }

/-! ## Station entries (12.4, R184, R185) -/

/-- The 24 bytes of the entry of station k. -/
def stationEntry (rs : List Station) (k : Nat) : List Byte :=
  match findStation rs k with
  | none => field 2 k ++ List.replicate 22 0
  | some r =>
    field 2 k
    ++ field 1 (bitSet [true, r.state = .settled, r.stale, r.density.isSome])
    ++ field 2 r.meanX ++ field 2 r.meanY ++ field 2 r.meanT ++ field 2 r.samples
    ++ field 2 (reportedOffset r.offsetX) ++ field 2 (reportedOffset r.offsetY)
    ++ field 1 r.passCount ++ field 2 r.speedA ++ field 2 r.speedB ++ field 1 r.differential
    ++ field 2 (r.density.getD 0) ++ field 1 r.marks.bits

/-- The entries of a range, in index order. -/
def stationEntries (rs : List Station) (first count : Nat) : List (List Byte) :=
  (List.range count).map fun i => stationEntry rs (first + i)

/-! ## Held queries (R75 to R79) -/

/-- A link's held query. -/
def StationTable.hold (t : StationTable) : Link → Hold
  | .cab => t.holdCab
  | .plant => t.holdPlant
  | .record => t.holdRecord

/-- Replace a link's held query. -/
def StationTable.setHold (t : StationTable) (l : Link) (h : Hold) : StationTable :=
  match l with
  | .cab => { t with holdCab := h }
  | .plant => { t with holdPlant := h }
  | .record => { t with holdRecord := h }

/-- Change each of the three held queries. -/
def StationTable.mapHolds (t : StationTable) (f : Hold → Hold) : StationTable :=
  { t with holdCab := f t.holdCab, holdPlant := f t.holdPlant, holdRecord := f t.holdRecord }

/-- Whether an index lies in the range of a held query. -/
def Query.covers (q : Query) (k : Nat) : Bool := q.first ≤ k && k < q.first + q.range

/-- Whether every present record of a range is SETTLED and not stale (R74, R76). -/
def rangeReady (rs : List Station) (q : Query) : Bool := rs.all fun r => !q.covers r.index || r.qualifies

/-- The review of one held query: a WAITING hold whose range is ready is prepared (R76). -/
def Hold.review (rs : List Station) : Hold → Hold
  | .waiting q => if rangeReady rs q then .prepared q (stationEntries rs q.first q.range) else .waiting q
  | .free => .free
  | .prepared q b => .prepared q b
  | .cancelled f c => .cancelled f c

/-- The review of every held query (R76). -/
def reviewHolds (s : State) : State := { s with table := s.table.mapHolds (Hold.review s.table.records) }

/-- A PREPARED hold whose range holds a changed index is invalidated (R76). -/
def Hold.invalidate (changed : List Nat) : Hold → Hold
  | .prepared q b => if changed.any q.covers then .waiting q else .prepared q b
  | .free => .free
  | .waiting q => .waiting q
  | .cancelled f c => .cancelled f c

/-- Invalidate every held query whose range holds a changed index. -/
def invalidateHolds (changed : List Nat) (s : State) : State :=
  { s with table := s.table.mapHolds (Hold.invalidate changed) }

/-- The end of a held query at the panel-open event and at ABANDON PANEL (R79). -/
def Hold.cancel : Hold → Hold
  | .waiting q => .cancelled q.first q.count
  | .prepared q _ => .cancelled q.first q.count
  | .free => .free
  | .cancelled f c => .cancelled f c

/-- The table at the panel-open event and at ABANDON PANEL (R7, R12, R80). -/
def StationTable.emptied (t : StationTable) : StationTable :=
  { lastIncl := t.lastIncl
    holdCab := t.holdCab.cancel
    holdPlant := t.holdPlant.cancel
    holdRecord := t.holdRecord.cancel }

/-! ## Settlement (R68) -/

/-- Settle the record of station k if it is present and OPEN. -/
def settle (k : Nat) (s : State) : State :=
  match findStation s.table.records k with
  | some r =>
    if r.state = .opened then
      let r : Station := { r with state := .settled }
      if r.stale then reviewHolds (setRecords (putStation r s.table.records) s)
      else
        let r := judged s.geometry r
        reviewHolds (setRecords (putStation r s.table.records) (applyTolerance r s))
    else s
  | none => s

/-- Settle the stations of a list, in its order (R10's settle stage). -/
def settleEach : List Nat → State → State
  | [], s => s
  | k :: ks, s => settleEach ks (settle k s)

/-! ## The sample accumulator (R55 to R57) -/

/-- Clear the accumulator (R57). -/
def clearAccumulator (s : State) : State := { s with table := { s.table with acc := {} } }

/-- The scan value of a channel in a scan record. -/
def ScanRecord.get (r : ScanRecord) (c : Channel) : Option ScanValue := (r.entries[c.code]?).join

/-- The inclination and twist of a scan that holds all three. -/
def ScanRecord.inclination (r : ScanRecord) : Option Inclination :=
  match r.get .ix, r.get .iy, r.get .tw with
  | some x, some y, some t => some { ix := x, iy := y, tw := t }
  | _, _, _ => none

/-- Whether one of three values carries the SATURATED mark. -/
def Inclination.saturated (i : Inclination) : Bool := i.ix.saturated || i.iy.saturated || i.tw.saturated

/-- Add a sample; at 4096 the sums are halved, truncated toward zero, and the count becomes 2048 (R55). -/
def Accumulator.add (a : Accumulator) (i : Inclination) : Accumulator :=
  let sum : Accumulator :=
    { sumX := a.sumX + i.ix.value
      sumY := a.sumY + i.iy.value
      sumT := a.sumT + i.tw.value
      count := a.count + 1
      clampedSeen := a.clampedSeen || i.saturated }
  if sum.count = 4096 then
    { sum with
      sumX := sum.sumX.tdiv 2
      sumY := sum.sumY.tdiv 2
      sumT := sum.sumT.tdiv 2
      count := 2048 }
  else sum

/-- The Station Table takes a completed scan (R55, R56). -/
def stationScan (r : ScanRecord) (s : State) : State :=
  match r.valid, r.inclination with
  | true, some i =>
    let counts := s.panel = .active && s.depth.ref != .unreferenced
    { s with table := { s.table with
        lastIncl := some i
        acc := if counts then s.table.acc.add i else s.table.acc } }
  | _, _ => s

/-! ## Crossings (R58 to R65) -/

/-- The means, samples and sampling marks of a crossing (R58 steps 1 and 2): IX, IY, TW, samples, NO_SAMPLE,
INCL_CLAMPED. -/
def StationTable.means (t : StationTable) : (Int × Int × Int) × Nat × Bool × Bool :=
  if t.acc.count ≠ 0 then
    ((roundAway t.acc.sumX t.acc.count, roundAway t.acc.sumY t.acc.count, roundAway t.acc.sumT t.acc.count),
      t.acc.count, false, t.acc.clampedSeen)
  else match t.lastIncl with
    | some i => ((i.ix.value, i.iy.value, i.tw.value), 0, true, i.saturated)
    | none => ((0, 0, 0), 0, true, false)

/-- The return density that a crossing records: that of the last report, if it is fresh (R53). -/
def ReturnBalance.freshDensity (b : ReturnBalance) : Option Int :=
  if b.fresh then b.report.map (·.returnDensity) else none

/-- The record a crossing of station k builds, before its offset (R58, R59). -/
def crossingRecord (k : Nat) (ref : RefState) (s : State) : Station :=
  let m := s.table.means
  let old := findStation s.table.records k
  { index := k
    state := .opened
    stale := false
    meanX := m.1.1
    meanY := m.1.2.1
    meanT := m.1.2.2
    samples := m.2.1
    offsetX := 0
    offsetY := 0
    passCount := match old with
      | some r => min (r.passCount + 1) 15
      | none => 1
    speedA := s.drives.a.motor.speed
    speedB := s.drives.b.motor.speed
    differential := s.align.diff
    density := s.ret.freshDensity
    marks :=
      { noSample := m.2.2.1
        inclClamped := m.2.2.2
        depthSuspect := ref = .suspect
        revised := old.isSome } }

/-- Whether a crossing at k is taken below the walker's cursor, or with the walker IDLE: its offset is then final
(R64, R65). -/
def crossesAhead (w : Option Walker) (k : Nat) : Bool :=
  match w with
  | none => true
  | some w => k < w.cursor

/-- Mark stale every record above k (R64, R65). -/
def staleAbove (k : Nat) (rs : List Station) : List Station :=
  rs.map fun r => if k < r.index then { r with stale := true } else r

/-- The Station Table takes a crossing event (R58). -/
def crossing (k : Nat) (ref : RefState) (s : State) : State :=
  if s.panel ≠ .active then s
  else
    let r := withOffset s.geometry s.table.records (crossingRecord k ref s)
    let s := { s with table := { s.table with reference := some k, acc := {} } }
    if crossesAhead s.table.walker k then
      let rs := staleAbove k (putStation r s.table.records)
      let walker : Option Walker := (nextAbove rs k).map fun c => { cursor := c, due := s.clock + 50 }
      let s := setRecords rs { s with table := { s.table with walker := walker } }
      invalidateHolds (k :: (rs.filter fun x => k < x.index).map (·.index)) s
    else
      invalidateHolds [k] (setRecords (putStation { r with stale := true } s.table.records) s)

/-! ## The restitch step (R66) -/

/-- The walker recomputes a record: offset and GAP_BRIDGED as the table stands, the stale mark cleared, the tolerance
check if it is SETTLED, the summary and the held queries. -/
def restitchRecord (r : Station) (s : State) : State :=
  let r : Station := { withOffset s.geometry s.table.records r with stale := false }
  let s := invalidateHolds [r.index] s
  if r.state = .settled then
    let r := judged s.geometry r
    reviewHolds (setRecords (putStation r s.table.records) (applyTolerance r s))
  else reviewHolds (setRecords (putStation r s.table.records) s)

/-- The cursor advances to the least present index above it, or the walker goes IDLE (R66). -/
def advanceWalker (c : Nat) (s : State) : State :=
  let walker : Option Walker := (nextAbove s.table.records c).map fun k => { cursor := k, due := s.clock + 50 }
  { s with table := { s.table with walker := walker } }

/-- One restitch step completion. -/
def restitch (w : Walker) (s : State) : State :=
  match findStation s.table.records w.cursor with
  | some r => advanceWalker w.cursor (restitchRecord r s)
  | none => advanceWalker w.cursor s

/-! ## The reference station (R60) -/

/-- The reference station's record, if it is current: present and not stale. -/
def StationTable.currentReference (t : StationTable) : Option Station :=
  match t.reference with
  | none => none
  | some k => (findStation t.records k).filter fun r => !r.stale

/-! ## READ STATIONS (R72 to R77) and CANCEL HOLD (R78) -/

/-- The reply payload of entries: first index, entry count, first depth, spacing, entries (12.4). -/
def entriesPayload (g : Geometry) (first : Nat) (entries : List (List Byte)) : List Byte :=
  field 2 first ++ field 1 entries.length ++ field 4 (g.depthOf first) ++ field 2 g.spacing ++ entries.flatten

/-- PENDING with the truncated range. -/
def pendingAnswer (q : Query) : Answer :=
  { outcome := .pending, truncated := q.range != q.count, payload := field 2 q.first ++ field 1 q.range }

/-- The truncated range of a request: it ends at the page of its first index (R73). -/
def truncated (first count : Nat) : Nat := min count (16 - first % 16)

/-- READ STATIONS from the panel check on (R72 checks 4 to 7). -/
def evaluateStations (l : Link) (first count : Nat) (s : State) : State × Answer :=
  if s.panel = .idle then (s, { outcome := .noData })
  else if s.geometry.stations < first + count then (s, refusal .badValue)
  else
    let q : Query := { first := first, count := count, range := truncated first count }
    if rangeReady s.table.records q then
      (s, { outcome := .done
            truncated := q.range != q.count
            payload := entriesPayload s.geometry first (stationEntries s.table.records first q.range) })
    else ({ s with table := s.table.setHold l (.waiting q) }, pendingAnswer q)

/-- READ STATIONS against the link's held query (R77). -/
def stationsOf (l : Link) (first count : Nat) (s : State) : State × Answer :=
  let freed := { s with table := s.table.setHold l .free }
  match s.table.hold l with
  | .free => evaluateStations l first count s
  | .waiting q =>
    if q.first = first ∧ q.count = count then (s, pendingAnswer q) else (s, refusal .heldOther)
  | .prepared q buffer =>
    if q.first = first ∧ q.count = count then
      (freed, { outcome := .ready
                truncated := q.range != q.count
                payload := entriesPayload s.geometry q.first buffer })
    else (s, refusal .heldOther)
  | .cancelled f c =>
    if f = first ∧ c = count then (freed, { outcome := .noData }) else evaluateStations l first count freed

/-- READ STATIONS after its length check (R72 checks 2 and 3). -/
def readStationsBody (l : Link) (p : List Byte) (s : State) : State × Answer :=
  let first := (unsignedAt p 0 2).toNat
  let count := (unsignedAt p 2 1).toNat
  if count = 0 ∨ 16 < count then (s, refusal .badValue) else stationsOf l first count s

/-- READ_STATIONS. -/
def execReadStations (s : State) : Host.Outcome State Fault Refusal :=
  .next (request 0x42 .anyLink (payloadOf 3 readStationsBody) s)

/-- CANCEL HOLD after its length check (R78). -/
def cancelHoldBody (l : Link) (s : State) : State × Answer :=
  if s.table.hold l = .free then (s, { outcome := .noData })
  else ({ s with table := s.table.setHold l .free }, doneWith [])

/-- CANCEL_HOLD. -/
def execCancelHold (s : State) : Host.Outcome State Fault Refusal :=
  .next (request 0x43 .anyLink (emptyPayload cancelHoldBody) s)

end Sys2Proof.Machine
end

