-- ==== Sys2Proof/Machine/Return.lean ====
section
/-! DEFINITION. The Return Balance Unit (08_return_balance.md): capacity, allowance, limit, backlog, return state, and
the steps REPORT_RETURN, REPORT_STALE_EXPIRY, BLOCKAGE_CONFIRM_EXPIRY, RECOVERY_TIMER_EXPIRY. -/

namespace Sys2Proof.Machine

/-! ## Capacity, allowance, limit -/

/-- The carrying capacity C (R139). -/
def capacityOf (g : Geometry) (d : PumpGroup) : Option Report → Int
  | none => 0
  | some r =>
    if d.densityLimit ≤ r.supplyDensity ∨ g.groundDensity ≤ r.supplyDensity then 0
    else (r.flow * (d.densityLimit - r.supplyDensity)).tdiv (g.groundDensity - r.supplyDensity)

/-- The feed allowance F_allow (R140). -/
def allowanceOf (g : Geometry) (d : PumpGroup) (c : Int) : Int :=
  clamp 0 9999 ((c * 100 * d.margin).tdiv g.area)

/-- Recompute C and F_allow. -/
def recomputeCapacity (s : State) : State :=
  let c := capacityOf s.geometry s.demand.pump s.ret.report
  { s with ret := { s.ret with capacity := c, allowance := allowanceOf s.geometry s.demand.pump c } }

/-- The published feed limit of a return state (R141). -/
def limitIn (d : DemandTable) (b : ReturnBalance) : Int :=
  match b.state with
  | .normal => min b.allowance d.feed.ceiling
  | .blind => min d.pump.blindAllowance d.feed.ceiling
  | .stopped | .priming | .congested | .blocked => 0

/-- Recompute the published feed limit. -/
def recomputeLimit (s : State) : State := { s with ret := { s.ret with limit := limitIn s.demand s.ret } }

/-! ## Return states (R143 to R149) -/

/-- The states that hold the feed for the RETURN reason (R47, R143). -/
def ReturnState.holdsFeed : ReturnState → Bool
  | .stopped | .priming | .congested | .blocked => true
  | .normal | .blind => false

/-- Enter a return state: at a change RETURN_STATE is raised, the limit recomputed and the feed governor told (R149);
the confirm timer is stopped at the entry to STOPPED and BLOCKED, the recovery timer at the entry to STOPPED (R144,
R147). -/
def enterReturn (st : ReturnState) (s : State) : State :=
  if st = s.ret.state then s
  else
    let b := { s.ret with
      state := st
      confirm := if st = .stopped ∨ st = .blocked then none else s.ret.confirm
      recovery := if st = .stopped then none else s.ret.recovery }
    govern (fun r => { r with ret := st.holdsFeed }) (recomputeLimit (raise .returnState { s with ret := b }))

/-- Whether the last report's return density is above a bound. -/
def ReturnBalance.densityAbove (b : ReturnBalance) (bound : Int) : Bool :=
  match b.report with
  | some r => bound < r.returnDensity
  | none => false

/-- The entry conditions of CONGESTED (R146). -/
def congestionEntry (d : PumpGroup) (b : ReturnBalance) : Bool :=
  d.bHi ≤ b.backlog || b.densityAbove d.densityLimit

/-- The exit conditions of CONGESTED (R146). -/
def congestionExit (d : PumpGroup) (b : ReturnBalance) : Bool :=
  b.backlog ≤ d.bLo && !b.densityAbove (d.densityLimit - 10) && !congestionEntry d b

/-- The flow of the last report, 0 if there is none. -/
def ReturnBalance.flow (b : ReturnBalance) : Int :=
  match b.report with
  | some r => r.flow
  | none => 0

/-- The return state decided at a report (R144 to R146, R148). -/
def stateAtReport (d : PumpGroup) (b : ReturnBalance) : ReturnState :=
  match b.state with
  | .priming => if d.qMin ≤ b.flow then (if congestionEntry d b then .congested else .normal) else .priming
  | .normal | .blind => if congestionEntry d b then .congested else .normal
  | .congested => if congestionExit d b then (if b.fresh then .normal else .blind) else .congested
  | .stopped => .stopped
  | .blocked => .blocked

/-- The return state decided at a feed window completion (R144 to R146, R148). -/
def stateAtWindow (d : PumpGroup) (b : ReturnBalance) : ReturnState :=
  match b.state with
  | .normal => if congestionEntry d b then .congested else .normal
  | .blind => if congestionEntry d b then .congested else .blind
  | .congested => if congestionExit d b then (if b.fresh then .normal else .blind) else .congested
  | .stopped => .stopped
  | .priming => .priming
  | .blocked => .blocked

/-! ## Reports (R137, R138) -/

/-- The unit takes an accepted report, in R137's order. -/
def takeReport (r : Report) (s : State) : State :=
  let s := { s with ret := { s.ret with
    report := some r
    fresh := true
    staleTimer := some (s.inMs s.demand.pump.staleTime) } }
  let s := recomputeCapacity (raiseIf (s.geometry.groundDensity ≤ r.supplyDensity) .sensorFault s)
  recomputeLimit (enterReturn (stateAtReport s.demand.pump s.ret) s)

/-- REPORT RETURN after its length check (R137). 12.2 does not say whether its three 2-byte fields are signed: the
model reads them unsigned, so 0x8000 and above clamps to the top of the range. The model's choice: log entry 35. -/
def reportReturnBody (_ : Link) (p : List Byte) (s : State) : State × Answer :=
  let flow := unsignedAt p 0 2
  let rr := unsignedAt p 2 2
  let rs := unsignedAt p 4 2
  let r : Report :=
    { flow := clamp 0 15000 flow, returnDensity := clamp 1000 3000 rr, supplyDensity := clamp 1000 3000 rs }
  let s := takeReport r s
  (s, { outcome := .done
        clamped := r.flow != flow || r.returnDensity != rr || r.supplyDensity != rs
        payload := field 1 s.ret.state.code ++ field 2 s.ret.limit })

/-- REPORT_RETURN. -/
def execReportReturn (s : State) : Host.Outcome State Fault Refusal :=
  .next (request 0x32 .pumpOwner (payloadOf 6 reportReturnBody) s)

/-- The last report stops being fresh: NORMAL becomes BLIND, and the limit is recomputed (R138, R141, R145). -/
def reportStale (s : State) : State :=
  let s := { s with ret := { s.ret with fresh := false, staleTimer := none } }
  recomputeLimit (if s.ret.state = .normal then enterReturn .blind s else s)

/-- REPORT_STALE_EXPIRY. -/
def execReportStaleExpiry (s : State) : Host.Outcome State Fault Refusal :=
  .next (unlessReset s fun s => onExpiry s.ret.staleTimer s reportStale)

/-! ## The backlog (R142) -/

/-- The volume excavated in a window, in mL. -/
def excavated (g : Geometry) (deltaUm : Int) : Int := (max deltaUm 0 * g.area).tdiv 10000

/-- The volume removed in a window, in mL. -/
def removed (g : Geometry) (b : ReturnBalance) (windowMs : Int) : Int :=
  match b.fresh, b.report with
  | true, some r =>
    if g.groundDensity ≤ r.supplyDensity then 0
    else (r.flow * windowMs * max (r.returnDensity - r.supplyDensity) 0).tdiv
      (60 * (g.groundDensity - r.supplyDensity))
  | _, _ => 0

/-- The unit takes a feed window completion (R142). -/
def windowCompletion (deltaUm windowMs : Int) (s : State) : State :=
  let backlog := clamp 0 1000000 (s.ret.backlog + excavated s.geometry deltaUm - removed s.geometry s.ret windowMs)
  let s := recomputeCapacity { s with ret := { s.ret with backlog := backlog } }
  recomputeLimit (enterReturn (stateAtWindow s.demand.pump s.ret) s)

/-! ## Drive P (R144) -/

/-- Drive P tells the unit that it has become RUNNING. -/
def pumpStarted (s : State) : State :=
  if s.ret.state = .stopped then enterReturn .priming s else s

/-- Drive P tells the unit that it has become STOPPED. -/
def pumpStopped (s : State) : State := enterReturn .stopped s

/-! ## Blockage and recovery (R147, R148) -/

/-- A watch of a condition at a judged scan: start, run on, or stop. -/
def watch (condition : Bool) (t : Timer) (start : Nat) : Timer :=
  if condition then (match t with
    | some due => some due
    | none => some start)
  else none

/-- A reading that a scan holds without the SATURATED mark. -/
def ScanRecord.clean (r : ScanRecord) (c : Channel) : Option Int :=
  match r.get c with
  | some v => if v.saturated then none else some v.value
  | none => none

/-- The blocked condition (R147). -/
def blockedCondition (d : PumpGroup) (ps pd : Int) : Bool := ps < d.psBlock || d.pdBlock < pd

/-- The clear condition (R148). -/
def clearCondition (d : PumpGroup) (ps pd : Int) : Bool :=
  d.psBlock + d.psHysteresis ≤ ps && pd ≤ d.pdBlock - d.pdHysteresis

/-- The Return Balance Unit takes a completed scan. -/
def returnScan (r : ScanRecord) (s : State) : State :=
  match r.valid, r.clean .ps, r.clean .pd with
  | true, some ps, some pd =>
    let d := s.demand.pump
    match s.ret.state with
    | .priming | .normal | .blind | .congested =>
      { s with ret := { s.ret with
          confirm := watch (blockedCondition d ps pd) s.ret.confirm (s.inMs d.confirmTime) } }
    | .blocked =>
      { s with ret := { s.ret with
          recovery := watch (clearCondition d ps pd) s.ret.recovery (s.inMs d.recoveryTime) } }
    | .stopped => s
  | _, _, _ => s

/-- BLOCKAGE_CONFIRM_EXPIRY (R147). -/
def execBlockageConfirmExpiry (s : State) : Host.Outcome State Fault Refusal :=
  .next (unlessReset s fun s => onExpiry s.ret.confirm s fun s =>
    enterReturn .blocked { s with ret := { s.ret with confirm := none } })

/-- RECOVERY_TIMER_EXPIRY (R148). -/
def execRecoveryTimerExpiry (s : State) : Host.Outcome State Fault Refusal :=
  .next (unlessReset s fun s => onExpiry s.ret.recovery s fun s =>
    enterReturn .priming { s with ret := { s.ret with recovery := none } })

end Sys2Proof.Machine
end

