-- ==== Sys2Proof/Machine/Depth.lean ====
section
/-! DEFINITION. The Depth Counter (03_depth_feed_and_station_crossing.md): the count, the floor, crossings, re-arms,
settlement lines, the feed window, and the steps SET_DEPTH, ENCODER_TRANSITION, FEED_WINDOW_EXPIRY. -/

namespace Sys2Proof.Machine

/-! ## Depth (R35) -/

/-- The internal depth in µm of a count. -/
def depthUm (g : Geometry) (count : Int) : Int := count * g.encoderStep

/-- The internal depth now. -/
def State.depthNow (s : State) : Int := depthUm s.geometry s.depth.count

/-- The reported depth in mm, rounded toward minus infinity. -/
def reportedDepth (um : Int) : Int := um.fdiv 1000

/-- The bound of the internal depth. -/
def depthBound : Int := 1000000000

/-- Whether an internal depth lies within the bound. -/
def withinBound (um : Int) : Bool := -depthBound ≤ um && um ≤ depthBound

/-! ## The floor (R39) -/

/-- The floor that a depth gives: the first station deeper than it, or N. -/
def floorAt (g : Geometry) (um : Int) : Nat :=
  ((List.range g.stations).find? fun k => um < g.depthOf k * 1000).getD g.stations

/-- Place the floor at the present depth. -/
def placeFloor (s : State) : State := { s with depth := { s.depth with floor := floorAt s.geometry s.depthNow } }

/-! ## Reference state and final depth -/

/-- Set the reference state, and tell the feed governor (R37, R47). -/
def setReference (ref : RefState) (s : State) : State :=
  govern (fun r => { r with reference := ref = .unreferenced }) { s with depth := { s.depth with ref := ref } }

/-- Set or clear the final-depth condition, and tell the feed governor (R43). -/
def setFinal (b : Bool) (s : State) : State :=
  govern (fun r => { r with final := b }) { s with depth := { s.depth with final := b } }

/-! ## SET DEPTH (R38) -/

/-- The count whose depth is nearest a requested depth, the larger where two are equally near. -/
def nearestCount (g : Geometry) (um : Int) : Int := (2 * um + g.encoderStep).fdiv (2 * g.encoderStep)

/-- SET DEPTH after its length check. -/
def setDepthBody (_ : Link) (p : List Byte) (s : State) : State × Answer :=
  let mm := signedAt p 0 4
  if mm < -100000 ∨ 400000 < mm then (s, refusal .badValue)
  else
    let count := nearestCount s.geometry (mm * 1000)
    let s := { s with depth := { s.depth with
      count := count
      windowStart := s.depth.windowStart + (count - s.depth.count) } }
    let s := setReference .referenced s
    let s := clearAccumulator (if s.panel = .closing then s else placeFloor s)
    (s, doneWith (field 4 (reportedDepth s.depthNow)))

/-- SET_DEPTH. -/
def execSetDepth (s : State) : Host.Outcome State Fault Refusal :=
  .next (request 0x14 .cabOnly (payloadOf 4 setDepthBody) s)

/-! ## Encoder transitions (R35, R36, R40 to R43) -/

/-- The phase of a pair of levels, in the downward order 00, 10, 11, 01. -/
def phaseOf : Bool → Bool → Nat
  | false, false => 0
  | true, false => 1
  | true, true => 2
  | false, true => 3

/-- What a change of the levels is. -/
inductive Motion where
  | still | down | up | illegal
deriving DecidableEq, Repr

/-- The motion from one phase to another: one step along the order, one against it, or two. -/
def motionOf (before after : Nat) : Motion :=
  if after = before then .still
  else if after = (before + 1) % 4 then .down
  else if before = (after + 1) % 4 then .up
  else .illegal

/-- An illegal transition: the count stands, DEPTH_FAULT is raised, and REFERENCED becomes SUSPECT (R36). -/
def illegalTransition (s : State) : State :=
  let s := raise .depthFault s
  if s.depth.ref = .referenced then setReference .suspect s else s

/-- Whether crossings, re-arms and settlement lines are taken (R37). -/
def DepthCounter.referenced (d : DepthCounter) : Bool := d.ref != .unreferenced

/-- The crossing of a downward transition (R40): the armed floor station is passed, so the floor advances, the Station
Table takes the crossing, and the crossing of station N − 1 sets the final-depth condition (R43). -/
def judgeCrossing (before after : Int) (s : State) : State :=
  let f := s.depth.floor
  let line := s.geometry.depthOf f * 1000
  if s.panel = .active ∧ s.depth.referenced ∧ f < s.geometry.stations ∧ before < line ∧ line ≤ after then
    let s := crossing f s.depth.ref { s with depth := { s.depth with floor := f + 1 } }
    if f + 1 = s.geometry.stations then setFinal true (raise .finalDepth s) else s
  else s

/-- The settlement line of station k, in µm (R42). -/
def settlementLine (g : Geometry) (k : Nat) : Int := (g.depthOf k + g.settleDistance) * 1000

/-- The settlement line of a downward transition (R42): at most one station's line is passed. -/
def judgeSettlement (before after : Int) (s : State) : State :=
  if (s.panel = .active ∨ s.panel = .closing) ∧ s.depth.referenced then
    match (List.range s.geometry.stations).find? fun k =>
        before < settlementLine s.geometry k && settlementLine s.geometry k ≤ after with
    | some k => settle k s
    | none => s
  else s

/-- The re-arm of an upward transition (R41). -/
def judgeRearm (after : Int) (s : State) : State :=
  let f := s.depth.floor
  if s.panel = .active ∧ s.depth.referenced ∧ 0 < f
      ∧ after < (s.geometry.depthOf (f - 1) - s.geometry.repassHeight) * 1000 then
    clearAccumulator { s with depth := { s.depth with floor := f - 1 } }
  else s

/-- Count a valid transition, unless it would carry the depth beyond the bound (R35). -/
def countStep (step : Int) (s : State) : State :=
  let before := s.depthNow
  let after := depthUm s.geometry (s.depth.count + step)
  if withinBound after then
    let s := { s with depth := { s.depth with count := s.depth.count + step } }
    if 0 < step then judgeSettlement before after (judgeCrossing before after s) else judgeRearm after s
  else illegalTransition s

/-- The lines take new levels. -/
def setLines (first second : Bool) (s : State) : State :=
  { s with depth := { s.depth with lineA := first, lineB := second } }

/-- The Depth Counter takes a change of the encoder lines. -/
def encoderChange (first second : Bool) (s : State) : State :=
  let m := motionOf (phaseOf s.depth.lineA s.depth.lineB) (phaseOf first second)
  let s := setLines first second s
  match m with
  | .still => s
  | .down => countStep 1 s
  | .up => countStep (-1) s
  | .illegal => illegalTransition s

/-- ENCODER_TRANSITION. While the reset line is asserted only the levels change: the phase is read afresh when COLD
takes effect (R50). -/
def execEncoderTransition (first second : Bool) (s : State) : Host.Outcome State Fault Refusal :=
  .next (if s.resetLine then setLines first second s else encoderChange first second s)

/-! ## The feed window (R44 to R46) -/

/-- The feed of a window, in mm/min. -/
def feedOf (deltaUm windowMs : Int) : Int := clamp (-9999) 9999 ((deltaUm * 60).tdiv windowMs)

/-- OVERFEED is judged on a window's feed (R46): the new overfeed window count and the new condition. -/
def overfeedAfter (f : FeedGroup) (limit feed count : Int) (set : Bool) : Int × Bool :=
  if limit + f.tolerance < feed then
    let n := min (count + 1) 8
    (n, set || f.overfeedWindows ≤ n)
  else if limit < feed then (0, set)
  else (0, false)

/-- The Depth Counter measures the window that ended (R45). -/
def feedWindow (s : State) : State :=
  let delta := (s.depth.count - s.depth.windowStart) * s.geometry.encoderStep
  let length := s.depth.windowLength
  let feed := feedOf delta length
  let o := overfeedAfter s.demand.feed s.ret.limit feed s.depth.overCount s.depth.overfeed
  let s := { s with depth := { s.depth with
    lastFeed := feed
    overCount := o.1
    overfeed := o.2
    windowStart := s.depth.count
    windowLength := s.demand.feed.window
    windowTimer := some (s.inMs s.demand.feed.window) } }
  windowCompletion delta length (govern (fun r => { r with overfeed := o.2 }) s)

/-- FEED_WINDOW_EXPIRY. -/
def execFeedWindowExpiry (s : State) : Host.Outcome State Fault Refusal :=
  .next (unlessReset s fun s => onExpiry s.depth.windowTimer s feedWindow)

end Sys2Proof.Machine
end

