-- ==== Sys2Proof/Machine/Align.lean ====
section
/-! DEFINITION. The Alignment Unit (05_alignment_computation.md): evaluations at completed scans, mode changes and
TUNING writes. It is no row of its own: it acts within CONVERSION_COMPLETION, SET_WHEEL and SET_TUNING. -/

namespace Sys2Proof.Machine

/-- The virtual or real reference of a TRACKING evaluation: depth in mm and offsets in nm (R85). -/
structure Reference where
  depth : Int
  offsetX : Int
  offsetY : Int
deriving DecidableEq, Repr

/-- The reference of an evaluation: none when a reference station exists and is not current (R81 branch 4). -/
def referenceOf (g : Geometry) (t : StationTable) : Option Reference :=
  match t.reference with
  | none => some { depth := g.start, offsetX := 0, offsetY := 0 }
  | some k => t.currentReference.map fun r => { depth := g.depthOf k, offsetX := r.offsetX, offsetY := r.offsetY }

/-- The distance below the reference depth, in mm (R86). -/
def distanceBelow (g : Geometry) (um refDepth : Int) : Int := clamp 0 g.spacing ((um - refDepth * 1000).tdiv 1000)

/-- The predicted offset on an axis, in nm (R87, R91). -/
def predicted (offset incl delta lookAhead : Int) : Int := offset + incl * 25 * (delta + lookAhead)

/-- The error on an axis, in µm (R88, R91). -/
def errorOf (p target : Int) : Int := roundAway (p - target * 1000000) 1000

/-- The raw differential demand (R89): the sign is opposite to that of the error. -/
def rawDemand (t : TuningGroup) (ex : Int) : Int :=
  if |ex| ≤ t.dbX then 0 else withSign (-ex) (((|ex| - t.dbX) * t.gX).tdiv 1000)

/-- The Y demand, in % (R91). -/
def yDemand (t : TuningGroup) (ey : Int) : Int :=
  if |ey| ≤ t.dbY then 0 else withSign ey (min t.yMax (((|ey| - t.dbY) * t.gY).tdiv 1000))

/-- The twist demand, in % (R92). -/
def twistDemand (t : TuningGroup) (tw : Int) : Int :=
  if |tw| ≤ t.dbT then 0 else withSign tw (min t.tMax (((|tw| - t.dbT) * t.gT).tdiv 10))

/-- Plate mixing (R93). -/
def mixed (b y t : Int) : PlateDemands :=
  { af := clamp 0 100 (b + y + t)
    bf := clamp 0 100 (b + y - t)
    ar := clamp 0 100 (b - y - t)
    br := clamp 0 100 (b - y + t) }

/-- The clamp to ±Dmax (R90, R96). -/
def clampDiff (t : TuningGroup) (d : Int) : Int := clamp (-t.dMax) t.dMax d

/-- The stage record of a TRACKING evaluation in AUTO (R85 to R92). -/
def stageOf (s : State) (ref : Reference) (seq : Nat) (i : Inclination) : StageRecord :=
  let t := s.demand.tuning
  let delta := distanceBelow s.geometry s.depthNow ref.depth
  let px := predicted ref.offsetX i.ix.value delta t.lookAhead
  let py := predicted ref.offsetY i.iy.value delta t.lookAhead
  let ex := errorOf px s.demand.wheel.targetX
  let ey := errorOf py s.demand.wheel.targetY
  { seq := seq
    delta := delta
    px := px
    ex := ex
    raw := clampDiff t (rawDemand t ex)
    py := py
    ey := ey
    yDem := yDemand t ey
    tw := i.tw.value
    tDem := twistDemand t i.tw.value }

/-- A TRACKING evaluation in AUTO (branch 7). -/
def trackStep (ref : Reference) (seq : Nat) (i : Inclination) (s : State) : Alignment :=
  let t := s.demand.tuning
  let g := stageOf s ref seq i
  { s.align with
    diff := stepToward s.align.diff g.raw t.rStep
    demands := mixed t.baseStroke g.yDem g.tDem
    status := .tracking
    cause := .none
    stage := some g }

/-- The manual step (R96). -/
def manualStep (s : State) : Alignment :=
  let t := s.demand.tuning
  let m := s.demand.wheel.manual
  { s.align with
    diff := stepToward s.align.diff (clampDiff t s.demand.wheel.manualDiff) t.rStep
    demands := { af := clamp 0 100 m.af, ar := clamp 0 100 m.ar, bf := clamp 0 100 m.bf, br := clamp 0 100 m.br }
    status := .tracking
    cause := .none }

/-- An INACTIVE evaluation (R83). -/
def inactiveStep (s : State) : Alignment :=
  { s.align with diff := 0, demands := {}, status := .inactive, cause := .none }

/-- A HOLDING evaluation (R84). -/
def holdStep (cause : HoldCause) (s : State) : Alignment := { s.align with status := .holding, cause := cause }

/-- The evaluation of a valid scan: the first branch whose condition holds (R81). -/
def evaluateAlign (r : ScanRecord) (s : State) : Alignment :=
  if s.panel ≠ .active then inactiveStep s
  else if s.align.steer = .manual then manualStep s
  else if s.depth.ref = .unreferenced then holdStep .unreferenced s
  else match referenceOf s.geometry s.table with
    | none => holdStep .notCurrent s
    | some ref =>
      match r.inclination with
      | none => holdStep .inputAbsent s
      | some i => if i.saturated then holdStep .inputSaturated s else trackStep ref r.seq i s

/-- The Alignment Unit takes a completed scan; it ignores an invalid one. -/
def alignScan (r : ScanRecord) (s : State) : State :=
  if r.valid then { s with align := evaluateAlign r s } else s

/-- The Alignment Unit takes an accepted SET TUNING: the differential is clamped to the Dmax in force (R98). -/
def alignTuning (s : State) : State :=
  { s with align := { s.align with diff := clampDiff s.demand.tuning s.align.diff } }

/-- The Alignment Unit takes a mode change (R95). -/
def alignMode (s : State) : State := { s with align := { s.align with steer := s.demand.wheel.steer } }

end Sys2Proof.Machine
end

