-- ==== Sys2Proof/Machine/Drive.lean ====
section
/-! DEFINITION. The Drive Channels (06_drive_channels.md): pickups, targets, the loop pass, stalls, tallies, and the
steps PICKUP_EDGE, PICKUP_TIMEOUT, LOOP_TIMER_EXPIRY, PWM_PERIOD_START, STALL_CONFIRM_EXPIRY, REVERSE_TIMER_EXPIRY,
LOADED_TIME_EXPIRY, RESTART_DRIVE, READ_TALLIES, CLEAR_TALLIES. -/

namespace Sys2Proof.Machine

/-! ## Access -/

/-- One wheel drive. -/
def State.wheel (s : State) : WheelId → WheelDrive
  | .a => s.drives.a
  | .b => s.drives.b

/-- Replace one wheel drive. -/
def State.setWheel (s : State) (w : WheelId) (d : WheelDrive) : State :=
  match w with
  | .a => { s with drives := { s.drives with a := d } }
  | .b => { s with drives := { s.drives with b := d } }

/-- The other wheel drive. -/
def otherWheel : WheelId → WheelId
  | .a => .b
  | .b => .a

/-- What a drive has in common with the others. -/
def State.motor (s : State) : DriveId → Motor
  | .a => s.drives.a.motor
  | .b => s.drives.b.motor
  | .p => s.drives.p.motor

/-- Replace what a drive has in common with the others. -/
def State.setMotor (s : State) (d : DriveId) (m : Motor) : State :=
  match d with
  | .a => { s with drives := { s.drives with a := { s.drives.a with motor := m } } }
  | .b => { s with drives := { s.drives with b := { s.drives.b with motor := m } } }
  | .p => { s with drives := { s.drives with p := { s.drives.p with motor := m } } }

/-- The pulses per revolution of a drive (R101). -/
def Geometry.ppr (g : Geometry) : DriveId → Int
  | .a => g.pprWheel
  | .b => g.pprWheel
  | .p => g.pprPump

/-! ## Counters (R119 to R122) -/

/-- The greatest value of a counter. -/
def counterMax : Nat := 16777215

/-- The value whose reaching gives the near-full notice. -/
def counterNotice : Nat := 12582912

/-- Add 1 to a counter: the counter, and whether TALLY_NEAR_FULL is raised (R122). -/
def Counter.tick (c : Counter) : Counter × Bool :=
  if counterMax ≤ c.value then (c, false)
  else if c.value + 1 = counterNotice && !c.near then ({ value := c.value + 1, near := true }, true)
  else ({ c with value := c.value + 1 }, false)

/-- Zero the seventeen counters and clear their marks (R122). -/
def zeroTallies (d : Drives) : Drives :=
  let wheel (w : WheelDrive) : WheelDrive :=
    { w with motor := { w.motor with rev := {} }, loadedTime := {}, bands := [{}, {}, {}, {}, {}, {}] }
  { d with a := wheel d.a, b := wheel d.b, p := { d.p with motor := { d.p.motor with rev := {} } } }

/-! ## Pickups (R101, R102) -/

/-- Where the 24-bit capture timer stops. -/
def captureMax : Nat := 16777215

/-- The capture timer: µs since the last accepted edge, none before the first since COLD. The model's choice: log
entry 37. -/
def State.capture (s : State) (m : Motor) : Option Nat := m.lastEdge.map fun t => min (s.clock - t) captureMax

/-- The speed of a pickup period, in 0.1 rpm. -/
def speedOf (period : Nat) (ppr : Int) : Int := clamp 0 65535 ((600000000 : Int).tdiv (period * ppr))

/-- The speed that an accepted edge gives. -/
def edgeSpeed (s : State) (m : Motor) (ppr : Int) : Int :=
  match s.capture m with
  | none => 0
  | some period => if m.noSpeed ∨ captureMax ≤ period then 0 else speedOf period ppr

/-- An edge less than 200 µs after the last accepted edge is ignored; before the first accepted edge since COLD none
is. The model's choice: log entry 37. -/
def edgeIgnored (s : State) (m : Motor) : Bool :=
  match s.capture m with
  | none => false
  | some period => period < 200

/-- A rising edge of a pickup, now. -/
def pickupEdge (d : DriveId) (s : State) : State :=
  let m := s.motor d
  if edgeIgnored s m then s
  else
    let c := if s.panel = .active then m.rev.tick else (m.rev, false)
    raiseIf c.2 .tallyNearFull (s.setMotor d { m with
      speed := edgeSpeed s m (s.geometry.ppr d)
      lastEdge := some s.clock
      noSpeed := false
      pickupTimer := some (s.inMs s.demand.tuning.pickupTimeout)
      rev := c.1 })

/-- PICKUP_EDGE. -/
def execPickupEdge (d : DriveId) (elapsed : Nat) (s : State) : Host.Outcome State Fault Refusal :=
  .next (unlessReset s fun s => pickupEdge d (s.reach (s.clock + elapsed)))

/-- A pickup timeout: the speed becomes 0, and the next accepted edge gives no speed. -/
def pickupSilent (d : DriveId) (s : State) : State :=
  s.setMotor d { s.motor d with speed := 0, noSpeed := true, pickupTimer := none }

/-- PICKUP_TIMEOUT. -/
def execPickupTimeout (d : DriveId) (s : State) : Host.Outcome State Fault Refusal :=
  .next (unlessReset s fun s => onExpiry (s.motor d).pickupTimer s (pickupSilent d))

/-! ## Direction (R108) and the governor -/

/-- The status that is not CHANGING. -/
def Dir.status : Dir → DirStatus
  | .forward => .forward
  | .reverse => .reverse

/-- The wanted direction of a wheel drive. -/
def wantedDir (g : WheelGroup) (d : WheelDrive) : Dir :=
  match d.state with
  | .stopped | .running => g.direction
  | .stallReverse => .reverse
  | .stallResume => .forward
  | .lockedOut => d.dirOut

/-- The direction status is the output when the wanted direction equals it, and CHANGING otherwise. -/
def withDirStatus (g : WheelGroup) (d : WheelDrive) : WheelDrive :=
  { d with dirStatus := if wantedDir g d = d.dirOut then d.dirOut.status else .changing }

/-- Whether the stall watch applies (R113), by the direction status as the drive's last event left it: a WHEEL direction
written since then is not seen yet. The model's choice: log entry 14. -/
def WheelDrive.watched (d : WheelDrive) : Bool :=
  (d.state = .running || d.state = .stallResume) && d.dirStatus = .forward

/-- The confirm timer is stopped where the stall watch does not apply (R113). -/
def stopUnwatched (d : WheelDrive) : WheelDrive := if d.watched then d else { d with confirm := none }

/-- Whether the drive is a reason of the feed governor: not both RUNNING and FORWARD (R47). -/
def WheelDrive.holdsFeed (d : WheelDrive) : Bool := !(d.state = .running && d.dirStatus = .forward)

/-- The drive publishes its state, and tells the feed governor. -/
def publishWheel (w : WheelId) (d : WheelDrive) (s : State) : State :=
  let d := stopUnwatched d
  govern (fun r => match w with
    | .a => { r with driveA := d.holdsFeed }
    | .b => { r with driveB := d.holdsFeed }) (s.setWheel w d)

/-! ## Targets (R103 to R105, R114) -/

/-- The effective base speed of a wheel drive (R103). -/
def effectiveBase (s : State) (w : WheelId) : Int :=
  let t := s.demand.tuning
  let other := (s.wheel (otherWheel w)).state
  let e := if s.demand.expired ∨ s.panel ≠ .active ∨ s.ret.state = .blocked then 0 else s.demand.wheel.baseSpeed
  let e := if s.ret.state = .congested then min e t.congestionSpeed else e
  let e := if other = .stallReverse ∨ other = .stallResume then min e t.companionSpeed else e
  if other = .lockedOut then 0 else e

/-- The composed target of a wheel drive (R104). -/
def composedTarget (w : WheelId) (e d : Int) : Int :=
  if e = 0 then 0
  else
    let shifted := clamp |d| (400 - |d|) e
    match w with
    | .a => shifted + d
    | .b => shifted - d

/-- The target of a wheel drive in its state (R104, R114, R116). -/
def wheelTarget (s : State) (w : WheelId) : Int :=
  let e := effectiveBase s w
  match (s.wheel w).state with
  | .stopped | .running | .stallResume => composedTarget w e s.align.diff
  | .stallReverse => if 0 < e then s.demand.tuning.reverseSpeed else 0
  | .lockedOut => 0

/-- The target of drive P (R105). -/
def pumpTarget (s : State) : Int := clamp 0 15000 ((s.demand.pump.flow * 1000).tdiv s.geometry.displacement)

/-! ## The loop pass (R106 to R112, R115, R118) -/

/-- At rest: target 0, working demand 0 and speed below 1.0 rpm (R112). -/
def Motor.atRest (m : Motor) : Bool := m.target = 0 && m.working = 0 && m.speed < 10

/-- The state change that a loop pass decides, the target being composed (R112, R115). -/
def wheelStateAt (t : TuningGroup) (d : WheelDrive) : WheelState :=
  match d.state with
  | .stopped => if 0 < d.motor.target then .running else .stopped
  | .running => if d.motor.atRest then .stopped else .running
  | .stallResume =>
    if d.dirStatus = .forward ∧ t.stallSpeed ≤ d.motor.speed then .running
    else if d.dirStatus = .forward ∧ d.motor.atRest then .stopped
    else .stallResume
  | .stallReverse => .stallReverse
  | .lockedOut => .lockedOut

/-- The ramp (R107). -/
def ramp (t : TuningGroup) (goal : Int) (m : Motor) : Motor :=
  { m with working := stepToward m.working goal t.rampStep }

/-- The duty and the integrator from the loop's terms (R109). -/
def dutyTerms (t : TuningGroup) (feedforward : Int) (m : Motor) : Motor :=
  let err := m.working - m.speed
  let duty := clamp 0 1000 (feedforward + (err * t.kp).tdiv 10 + m.integ.tdiv 16)
  let held := (duty = 1000 ∧ 0 < err) ∨ (duty = 0 ∧ err < 0)
  { m with
    computed := duty
    integ := if held then m.integ else clamp (-16000) 16000 (m.integ + err * t.ki) }

/-- The duty stage with the cases that close the valve (R109, R110). -/
def dutyStage (t : TuningGroup) (closed : Bool) (feedforward : Int) (m : Motor) : Motor :=
  if closed then { m with computed := 0, integ := 0 } else dutyTerms t feedforward m

/-- Whether the valve of a wheel drive is held closed (R110). -/
def wheelClosed (d : WheelDrive) : Bool :=
  d.motor.working = 0
    && (d.state = .stopped && d.motor.target = 0 || d.dirStatus = .changing || d.state = .lockedOut)

/-- The direction flip (R108); in STALL_REVERSE it starts the reverse timer (R114). -/
def flipStage (s : State) (d : WheelDrive) : WheelDrive :=
  if d.dirStatus = .changing ∧ d.motor.working = 0 ∧ d.motor.applied = 0 ∧ d.motor.speed < 10 then
    let out := wantedDir s.demand.wheel d
    { d with
      dirOut := out
      dirStatus := out.status
      reverseTimer := if d.state = .stallReverse then some (s.inMs s.demand.tuning.reverseTime) else d.reverseTimer }
  else d

/-- One loop pass of a wheel drive, in R106's order. -/
def wheelPass (w : WheelId) (s : State) : WheelDrive :=
  let t := s.demand.tuning
  let d := s.wheel w
  let d : WheelDrive := { d with motor := { d.motor with
    loopTimer := some (s.inMs t.loopPeriod)
    target := wheelTarget s w } }
  let d := withDirStatus s.demand.wheel { d with state := wheelStateAt t d }
  let d : WheelDrive := { d with motor := ramp t (if d.dirStatus = .changing then 0 else d.motor.target) d.motor }
  flipStage s { d with
    motor := dutyStage t (wheelClosed d) ((d.motor.working * t.kf).tdiv 100) d.motor }

/-- Drive P's state after the state stage of a pass (R118). -/
def pumpStateAt (d : PumpDrive) : PumpState :=
  match d.state with
  | .stopped => if 0 < d.motor.target then .running else .stopped
  | .running => if d.motor.atRest then .stopped else .running

/-- One loop pass of drive P. -/
def pumpPass (s : State) : PumpDrive :=
  let t := s.demand.tuning
  let d := s.drives.p
  let d : PumpDrive := { d with motor := { d.motor with
    loopTimer := some (s.inMs t.loopPeriod)
    target := pumpTarget s } }
  let d : PumpDrive := { d with state := pumpStateAt d }
  let d : PumpDrive := { d with motor := ramp t d.motor.target d.motor }
  let closed := d.state = .stopped && d.motor.target = 0 && d.motor.working = 0
  { d with motor := dutyStage t closed ((d.motor.working * 1000).tdiv 15000) d.motor }

/-- Drive P publishes, and tells the Return Balance Unit of a change of its state (R118, R144). -/
def publishPump (d : PumpDrive) (s : State) : State :=
  let old := s.drives.p.state
  let s := { s with drives := { s.drives with p := d } }
  if d.state = old then s
  else match d.state with
    | .running => pumpStarted s
    | .stopped => pumpStopped s

/-- The loop pass of a drive. -/
def loopPass (d : DriveId) (s : State) : State :=
  match d with
  | .a => publishWheel .a (wheelPass .a s) s
  | .b => publishWheel .b (wheelPass .b s) s
  | .p => publishPump (pumpPass s) s

/-- LOOP_TIMER_EXPIRY. -/
def execLoopTimerExpiry (d : DriveId) (s : State) : Host.Outcome State Fault Refusal :=
  .next (unlessReset s fun s => onExpiry (s.motor d).loopTimer s (loopPass d))

/-- A valve output takes the computed duty as its applied duty (R110). -/
def applyDuty (m : Motor) : Motor := { m with applied := m.computed }

/-- A PWM period starts (R110). One timer serves the three valve outputs, so their periods start together: R110 gives
each output a 4 ms period and states no common phase. The model's choice: log entries 24 and 34. -/
def pwmPeriod (s : State) : State :=
  { s with drives := { s.drives with
      a := { s.drives.a with motor := applyDuty s.drives.a.motor }
      b := { s.drives.b with motor := applyDuty s.drives.b.motor }
      p := { s.drives.p with motor := applyDuty s.drives.p.motor }
      pwmTimer := some (s.clock + 4000) } }

/-- PWM_PERIOD_START. -/
def execPwmPeriodStart (s : State) : Host.Outcome State Fault Refusal :=
  .next (unlessReset s fun s => onExpiry s.drives.pwmTimer s pwmPeriod)

/-! ## Stalls (R113 to R117) -/

/-- The stall list of a stall now: entries older than the lockout window removed, this stall appended (R114). -/
def stallList (t : TuningGroup) (nowMs : Nat) (stalls : List Nat) : List Nat :=
  stalls.filter (fun e => ((nowMs - e : Nat) : Int) ≤ t.lockoutWindow * 1000) ++ [nowMs]

/-- A stall of a wheel drive (R114). -/
def stall (w : WheelId) (s : State) : State :=
  let d := s.wheel w
  let list := stallList s.demand.tuning s.nowMs d.stalls
  let d : WheelDrive := { d with stalls := list, confirm := none }
  let s := raise .driveStall s
  if list.length < 3 then
    publishWheel w (withDirStatus s.demand.wheel { d with state := .stallReverse }) s
  else
    publishWheel w (withDirStatus s.demand.wheel { d with
      state := .lockedOut
      motor := { d.motor with target := 0 } }) (raise .driveLockout s)

/-- STALL_CONFIRM_EXPIRY. Taken between a write of the WHEEL direction and the drive's next loop pass, it is a stall. The
model's choice: log entry 14. -/
def execStallConfirmExpiry (w : WheelId) (s : State) : Host.Outcome State Fault Refusal :=
  .next (unlessReset s fun s => onExpiry (s.wheel w).confirm s (stall w))

/-- The reverse timer runs out (R115). -/
def endReversal (w : WheelId) (s : State) : State :=
  publishWheel w (withDirStatus s.demand.wheel { s.wheel w with state := .stallResume, reverseTimer := none }) s

/-- REVERSE_TIMER_EXPIRY. -/
def execReverseTimerExpiry (w : WheelId) (s : State) : Host.Outcome State Fault Refusal :=
  .next (unlessReset s fun s => onExpiry (s.wheel w).reverseTimer s (endReversal w))

/-- RESTART DRIVE after its length check (R117). -/
def restartDriveBody (_ : Link) (p : List Byte) (s : State) : State × Answer :=
  match wheelOf (p.headD 0) with
  | none => (s, refusal .badValue)
  | some w =>
    if (s.wheel w).state = .lockedOut then
      (publishWheel w (withDirStatus s.demand.wheel
        { s.wheel w with state := .stopped, stalls := [], confirm := none }) s, doneWith [])
    else (s, refusal .wrongState)

/-- RESTART_DRIVE. -/
def execRestartDrive (s : State) : Host.Outcome State Fault Refusal :=
  .next (request 0x25 .cabOnly (payloadOf 1 restartDriveBody) s)

/-! ## Scans (R113, R120, R121) -/

/-- The pressure channel of a wheel drive. -/
def pressureChannel : WheelId → Channel
  | .a => .pa
  | .b => .pb

/-- The pressure band of a reading, from 0 (R121). -/
def bandOf (counts : Int) : Nat :=
  let q := (counts * 100).tdiv 4095
  if q ≤ 24 then 0 else if q ≤ 49 then 1 else if q ≤ 69 then 2 else if q ≤ 84 then 3 else if q ≤ 94 then 4 else 5

/-- Whether a tally of a list of tallies gives its near-full notice when 1 is added. -/
def bandNotice (bands : List Counter) (k : Nat) : Bool := ((bands[k]?).map fun c => c.tick.2).getD false

/-- The stall condition (R113). -/
def stallCondition (t : TuningGroup) (m : Motor) (kPa : Int) : Bool :=
  t.stallPressure ≤ kPa && m.speed < t.stallSpeed && t.stallSpeed ≤ m.working

/-- A wheel drive takes a completed scan: stall watch, loaded condition, pressure-band tally. A scan taken between a
write of the WHEEL direction and the drive's next loop pass is judged by the direction status that the drive holds. The
model's choice: log entry 14. -/
def wheelScan (w : WheelId) (r : ScanRecord) (s : State) : State :=
  match r.valid, r.clean (pressureChannel w) with
  | true, some counts =>
    let t := s.demand.tuning
    let d := s.wheel w
    let kPa := counts * 10
    let tally := s.panel = .active
    let band := bandOf counts
    raiseIf (tally && bandNotice d.bands band) .tallyNearFull (s.setWheel w { d with
      confirm :=
        if d.watched then watch (stallCondition t d.motor kPa) d.confirm (s.inMs t.confirmTime) else none
      loaded := t.stallPressure ≤ kPa
      bands := if tally then d.bands.modify band fun c => c.tick.1 else d.bands })
  | true, none => s.setWheel w (stopUnwatched (s.wheel w))
  | false, _ => s

/-- The Drive Channels take a completed scan. -/
def driveScan (r : ScanRecord) (s : State) : State := wheelScan .b r (wheelScan .a r s)

/-! ## Loaded time (R120) -/

/-- The loaded-time timer expires for one wheel drive (R120). The parameter table of R124 has the stall pressure read at
this expiry too, but R120 changes the loaded condition only at scans: the model does not read it here. The model's
choice: log entry 33. -/
def loadedTick (w : WheelId) (s : State) : State :=
  let d := s.wheel w
  if d.loaded && s.panel = .active then
    raiseIf d.loadedTime.tick.2 .tallyNearFull (s.setWheel w { d with loadedTime := d.loadedTime.tick.1 })
  else s

/-- The loaded-time timer expires. -/
def loadedTime (s : State) : State :=
  loadedTick .b (loadedTick .a
    { s with drives := { s.drives with loadedTimer := some (s.clock + 100000) } })

/-- LOADED_TIME_EXPIRY. -/
def execLoadedTimeExpiry (s : State) : Host.Outcome State Fault Refusal :=
  .next (unlessReset s fun s => onExpiry s.drives.loadedTimer s loadedTime)

/-! ## Tallies (R123) -/

/-- The seventeen counters in the order of the tallies readout (12.5). -/
def Drives.counters (d : Drives) : List Counter :=
  [d.a.motor.rev, d.b.motor.rev, d.p.motor.rev, d.a.loadedTime, d.b.loadedTime] ++ d.a.bands ++ d.b.bands

/-- The counters and their near-full marks as readout fields. -/
def Drives.counterField (d : Drives) : List Byte :=
  (d.counters.map fun c => field 3 c.value).flatten ++ field 3 (bitSet (d.counters.map (·.near)))

/-- READ TALLIES after its length check. -/
def readTalliesBody (_ : Link) (s : State) : State × Answer :=
  (s, doneWith (s.drives.counterField ++ field 4 s.geometry.panelId))

/-- READ_TALLIES. -/
def execReadTallies (s : State) : Host.Outcome State Fault Refusal :=
  .next (request 0x45 .anyLink (emptyPayload readTalliesBody) s)

/-- CLEAR TALLIES after its length check. -/
def clearTalliesBody (_ : Link) (s : State) : State × Answer :=
  if s.panel = .closing then (s, refusal .busy) else ({ s with drives := zeroTallies s.drives }, doneWith [])

/-- CLEAR_TALLIES. -/
def execClearTallies (s : State) : Host.Outcome State Fault Refusal :=
  .next (request 0x54 .recordOnly (emptyPayload clearTalliesBody) s)

end Sys2Proof.Machine
end

