-- ==== Sys2Proof/Machine/Plate.lean ====
section
/-! DEFINITION. The Plate Drive (07_steering_plates.md), and the steps TRAVEL_TIMER_EXPIRY, CLEAR_PLATE_FAULT. -/

namespace Sys2Proof.Machine

/-- One plate. -/
def State.plate (s : State) : PlateId → Plate
  | .af => s.plates.af
  | .ar => s.plates.ar
  | .bf => s.plates.bf
  | .br => s.plates.br

/-- Replace one plate. -/
def State.setPlate (s : State) (i : PlateId) (p : Plate) : State :=
  match i with
  | .af => { s with plates := { s.plates with af := p } }
  | .ar => { s with plates := { s.plates with ar := p } }
  | .bf => { s with plates := { s.plates with bf := p } }
  | .br => { s with plates := { s.plates with br := p } }

/-- The Alignment Unit's published demand for a plate. -/
def PlateDemands.of (d : PlateDemands) : PlateId → Int
  | .af => d.af
  | .ar => d.ar
  | .bf => d.bf
  | .br => d.br

/-- The stroke channel of a plate (7.1). -/
def strokeChannel : PlateId → Channel
  | .af => .saf
  | .ar => .sar
  | .bf => .sbf
  | .br => .sbr

/-- A stroke in percent (R128). -/
def strokeOf (counts : Int) : Int := (counts * 100 + 2047).tdiv 4095

/-- Put a plate into a state, its outputs with it (R127). A plate at rest or in fault has its travel timer stopped
(R133). -/
def Plate.enter (p : Plate) (st : PlateState) : Plate :=
  { p with
    state := st
    extend := st = .extending
    retract := st = .retracting
    travel := if st = .extending ∨ st = .retracting then p.travel else none }

/-- Start a movement: the travel timer is started with its time (R130, R133). -/
def Plate.start (p : Plate) (st : PlateState) (due : Nat) : Plate := { p.enter st with travel := some due }

/-- Whether the retract-all override is active (R129). -/
def Override.active (o : Override) : Bool := o.panel || o.lift || o.blocked

/-- The causes of the override, judged now (R129). -/
def overrideCauses (s : State) : Override :=
  { panel := s.panel ≠ .active
    lift := s.depth.lastFeed < -s.demand.feed.liftThreshold
    blocked := s.ret.state = .blocked }

/-- The decision of one judgement (R130). -/
def judgePlate (band stroke demand : Int) (due : Nat) (p : Plate) : Plate :=
  let p := { p with lastStroke := some stroke, effective := demand }
  match p.state with
  | .hold =>
    if stroke < demand - band then p.start .extending due
    else if demand + band < stroke then p.start .retracting due
    else p.enter .hold
  | .extending => if demand ≤ stroke then p.enter .hold else p
  | .retracting => if stroke ≤ demand then p.enter .hold else p
  | .fault => p

/-- A plate enters FAULT, and PLATE_FAULT is raised (R132, R133). -/
def faultPlate (i : PlateId) (s : State) : State :=
  raise .plateFault (s.setPlate i ((s.plate i).enter .fault))

/-- One plate takes a valid completed scan, the override being judged (R130 to R132). -/
def plateJudgement (r : ScanRecord) (i : PlateId) (s : State) : State :=
  if (s.plate i).state = .fault then s
  else match r.get (strokeChannel i) with
    | none => s
    | some v =>
      if v.saturated then faultPlate i s
      else
        let demand := if s.plates.override.active then 0 else s.align.demands.of i
        s.setPlate i (judgePlate s.demand.tuning.plateBand (strokeOf v.value) demand
          (s.inMs s.demand.tuning.travelTime) (s.plate i))

/-- The Plate Drive takes a completed scan. -/
def plateScan (r : ScanRecord) (s : State) : State :=
  if r.valid then
    let s := { s with plates := { s.plates with override := overrideCauses s } }
    plateJudgement r .br (plateJudgement r .bf (plateJudgement r .ar (plateJudgement r .af s)))
  else s

/-- TRAVEL_TIMER_EXPIRY (R133). -/
def execTravelTimerExpiry (i : PlateId) (s : State) : Host.Outcome State Fault Refusal :=
  .next (unlessReset s fun s => onExpiry (s.plate i).travel s (faultPlate i))

/-- A plate leaves FAULT for HOLD (R134). -/
def clearPlate (s : State) (i : PlateId) : State :=
  if (s.plate i).state = .fault then s.setPlate i ((s.plate i).enter .hold) else s

/-- CLEAR PLATE FAULT after its length check (R134). -/
def clearPlateFaultBody (_ : Link) (p : List Byte) (s : State) : State × Answer :=
  match platesOf (p.headD 0) with
  | none => (s, refusal .badValue)
  | some ids =>
    if ids.any fun i => (s.plate i).state = .fault then (ids.foldl clearPlate s, doneWith [])
    else (s, refusal .wrongState)

/-- CLEAR_PLATE_FAULT. -/
def execClearPlateFault (s : State) : Host.Outcome State Fault Refusal :=
  .next (request 0x26 .cabOnly (payloadOf 1 clearPlateFaultBody) s)

end Sys2Proof.Machine
end

