-- ==== Sys2Proof/Machine/Acquire.lean ====
section
/-! DEFINITION. The Acquisition Unit (02_acquisition_unit.md), and the steps SET_ACQUISITION, SCAN_TIMER_EXPIRY,
CONVERSION_COMPLETION, READ_SNAPSHOT. -/

namespace Sys2Proof.Machine

/-! ## Starting and stopping -/

/-- Change the Acquisition Unit. -/
def State.setAcq (s : State) (f : Acquisition → Acquisition) : State := { s with acq := f s.acq }

/-- Start a scan or a settling scan: the first conversion takes 2 ms, or 20 ms (R18). -/
def startScan (st : AcqState) (s : State) : State :=
  s.setAcq fun a => { a with
    state := st
    results := []
    conversion := some (s.inMs (if st = .settling then 20 else 2)) }

/-- The converter stops, and the unit is WAITING. -/
def toWaiting (s : State) : State := s.setAcq fun a => { a with state := .waiting, conversion := none, results := [] }

/-- The unit is OFF: converter and timer stopped; the feed governor is told (R27). -/
def toOff (s : State) : State :=
  govern (fun r => { r with acqOff := true })
    (s.setAcq fun a => { a with state := .off, conversion := none, results := [], scanTimer := none })

/-- Adopt the pending list and mode (R23). -/
def adopt (s : State) : State :=
  s.setAcq fun a => { a with activeList := a.pendingList, activeMode := a.pendingMode }

/-- Load the scan timer with the period in force. -/
def loadScanTimer (s : State) : State := s.setAcq fun a => { a with scanTimer := some (s.inMs a.period) }

/-- Stop the scan timer. -/
def stopScanTimer (s : State) : State := s.setAcq fun a => { a with scanTimer := none }

/-- The timer takes the new period as the period in force, and reloads with it if it runs (R24). -/
def reloadScanTimer (s : State) : State :=
  s.setAcq fun a => { a with
    period := a.newPeriod
    scanTimer := a.scanTimer.map fun _ => s.inMs a.newPeriod }

/-! ## The scan timer (R25) -/

/-- A scan start point at a TIMED expiry (R23). -/
def startAtExpiry (s : State) : State :=
  let s := adopt s
  match s.acq.activeMode with
  | .timed => startScan .scanning s
  | .free => startScan .scanning (stopScanTimer s)
  | .off => toOff s

/-- The scan timer expires: it reloads, and the unit takes the expiry in its present state. -/
def scanExpiry (s : State) : State :=
  let s := reloadScanTimer s
  match s.acq.state with
  | .waiting => startAtExpiry s
  | .scanning | .settling => raise .scanOverrun s
  | .off => s

/-- SCAN_TIMER_EXPIRY. -/
def execScanTimerExpiry (s : State) : Host.Outcome State Fault Refusal :=
  .next (unlessReset s fun s => onExpiry s.acq.scanTimer s scanExpiry)

/-! ## Conversions (R17, R20, R21) -/

/-- Whether a channel is bipolar (R16). -/
def Channel.bipolar : Channel → Bool
  | .zr | .ix | .iy | .tw => true
  | .rf | .pa | .pb | .ps | .pd | .saf | .sar | .sbf | .sbr => false

/-- Whether a channel is corrected for zero (R21). -/
def Channel.zeroed : Channel → Bool
  | .ix | .iy | .tw => true
  | .zr | .rf | .pa | .pb | .ps | .pd | .saf | .sar | .sbf | .sbr => false

/-- The lower limit of a channel's range. -/
def Channel.low (c : Channel) : Int := if c.bipolar then -2048 else 0

/-- The upper limit of a channel's range. -/
def Channel.high (c : Channel) : Int := if c.bipolar then 2047 else 4095

/-- Whether a result lies at a limit of its channel's range (R17). -/
def Channel.atLimit (c : Channel) (v : Int) : Bool := v = c.low || v = c.high

/-- The result of a conversion: clamped, corrected for zero where the channel is, and marked (R17, R21). -/
def convert (z : Int) (c : Channel) (raw : Int) : ScanValue :=
  let r := clamp c.low c.high raw
  if c.zeroed then
    let v := clamp c.low c.high (r - z)
    { value := v, saturated := c.atLimit r || c.atLimit v }
  else { value := r, saturated := c.atLimit r }

/-- The zero check of a ZR conversion of a published scan (R20). -/
def zeroCheck (raw : Int) (s : State) : State :=
  let z := clamp (-2048) 2047 raw
  if |z| ≤ 64 then s.setAcq fun a => { a with zero := z } else raise .sensorFault s

/-! ## Scan completion (R28 to R31) -/

/-- The scan value of a channel: the mean of its conversions, absent if there is none (R19). -/
def scanValue (results : List Conversion) (c : Channel) : Option ScanValue :=
  let own := results.filter fun x => x.channel = c
  if own.isEmpty then none
  else some
    { value := meanOf (own.map (·.result.value))
      saturated := own.any (·.result.saturated) }

/-- The thirteen entries of a scan record (R31). -/
def scanEntries (results : List Conversion) : List (Option ScanValue) := defaultScanList.map (scanValue results)

/-- Validity from the RF scan value (R29). -/
def validRf : Option ScanValue → Bool
  | none => true
  | some v => 2960 ≤ v.value && v.value ≤ 3040

/-- Set the FAULT condition, and tell the feed governor (R30). -/
def setAcqFault (b : Bool) (s : State) : State :=
  govern (fun r => { r with acqFault := b }) (s.setAcq fun a => { a with fault := b })

/-- The judgement of a published scan (R30). -/
def judgeScan (valid : Bool) (s : State) : State :=
  if valid then setAcqFault false (s.setAcq fun a => { a with invalidCount := 0 })
  else if 5 ≤ s.acq.invalidCount then s
  else
    let s := s.setAcq fun a => { a with invalidCount := a.invalidCount + 1 }
    if s.acq.invalidCount = 5 then setAcqFault true (raise .sensorFault s) else s

/-- The five consumers take the scan. The Alignment Unit and the Plate Drive take it in no order between them (R94):
which is first is a free choice (log entry 1); the others do not meet. -/
def consumers (r : ScanRecord) (s : State) : State :=
  let first := s.choice
  let s := returnScan r (driveScan r (stationScan r s.drawn))
  if first then plateScan r (alignScan r s) else alignScan r (plateScan r s)

/-- The scan is judged, published and sent to the consumers (R29 to R31). -/
def publishScan (s : State) : State :=
  let entries := scanEntries s.acq.results
  let valid := validRf (entries[Channel.rf.code]?).join
  let s := judgeScan valid s
  let r : ScanRecord := { seq := (s.acq.seq + 1) % 65536, valid := valid, entries := entries }
  consumers r (s.setAcq fun a => { a with seq := r.seq, latest := some r })

/-- How the unit goes on at the completion of any scan (R23, R26, R28): a pending OFF is adopted; FREE is a scan
start point; TIMED waits. -/
def afterScan (s : State) : State :=
  if s.acq.pendingMode = .off then toOff (adopt s)
  else match s.acq.activeMode with
    | .free =>
      let s := adopt s
      match s.acq.activeMode with
      | .timed => toWaiting (loadScanTimer s)
      | .free => startScan .scanning s
      | .off => toOff s
    | .timed | .off => toWaiting s

/-- The completion of a scan: a settling scan is not published (R28). -/
def scanCompletion (s : State) : State :=
  afterScan (if s.acq.state = .settling then s else publishScan s)

/-- The conversion in progress completes with a reading (R18). -/
def conversionDone (raw : Int) (s : State) : State :=
  match s.acq.activeList[s.acq.results.length]? with
  | none => scanCompletion s
  | some c =>
    let s := if c = .zr ∧ s.acq.state ≠ .settling then zeroCheck raw s else s
    let s := s.setAcq fun a => { a with
      results := a.results ++ [{ channel := c, result := convert a.zero c raw }]
      conversion := some (s.inMs 2) }
    if s.acq.results.length < s.acq.activeList.length then s else scanCompletion s

/-- CONVERSION_COMPLETION. -/
def execConversionCompletion (raw : Int) (s : State) : Host.Outcome State Fault Refusal :=
  .next (unlessReset s fun s => onExpiry s.acq.conversion s (conversionDone raw))

/-! ## SET ACQUISITION (R22 to R24) -/

/-- A SET ACQUISITION payload that has passed its checks. -/
structure AcqRequest where
  list : List Channel
  period : Int
  mode : AcqMode
  restart : Bool
deriving DecidableEq, Repr

/-- The channel codes of a request, if each names a channel. -/
def channelsOf : List Byte → Option (List Channel)
  | [] => some []
  | b :: bs =>
    match channelOf b, channelsOf bs with
    | some c, some cs => some (c :: cs)
    | _, _ => none

/-- The checks of SET ACQUISITION, in order (R22). 12.2 does not say whether the 2-byte period is signed: it is read
unsigned. The model's choice: log entry 35. -/
def acqRequestOf (p : List Byte) : Except Reason AcqRequest :=
  let k := (p.headD 0).toNat
  if p.length < 5 ∨ p.length ≠ 5 + k then .error .badLength
  else if k = 0 ∨ 16 < k then .error .badValue
  else match channelsOf (slice p 1 k) with
    | none => .error .badValue
    | some list =>
      match acqModeOf (p.getD (3 + k) 0), restartChoiceOf (p.getD (4 + k) 0) with
      | some mode, some restart =>
        .ok { list := list, period := unsignedAt p (1 + k) 2, mode := mode, restart := restart }
      | _, _ => .error .badValue

/-- Leave OFF: adopt, start a settling scan, and load the timer in TIMED (R23, R27). -/
def leaveOff (s : State) : State :=
  let s := startScan .settling (adopt s)
  let s := if s.acq.activeMode = .timed then loadScanTimer s else s
  govern (fun r => { r with acqOff := false }) s

/-- The unit takes an accepted SET ACQUISITION (R22 to R24). -/
def acceptAcquisition (q : AcqRequest) (s : State) : State :=
  let s := s.setAcq fun a => { a with
    pendingList := q.list
    pendingMode := q.mode
    newPeriod := clamp 10 1000 q.period }
  let s := if q.restart then reloadScanTimer s else s
  match s.acq.state, q.mode with
  | .waiting, .off => toOff (adopt s)
  | .off, .timed | .off, .free => leaveOff s
  | _, _ => s

/-- SET ACQUISITION. -/
def setAcquisitionBody (_ : Link) (p : List Byte) (s : State) : State × Answer :=
  match acqRequestOf p with
  | .error r => (s, refusal r)
  | .ok q => (acceptAcquisition q s, { outcome := .done, clamped := clamp 10 1000 q.period != q.period })

/-- SET_ACQUISITION. -/
def execSetAcquisition (s : State) : Host.Outcome State Fault Refusal :=
  .next (request 0x24 .cabOnly setAcquisitionBody s)

/-! ## READ SNAPSHOT (R32, 12.5) -/

/-- A scan list as a count and sixteen codes. -/
def listField (cs : List Channel) : List Byte :=
  field 1 cs.length ++ ((cs.map fun c : Channel => BitVec.ofNat 8 c.code) ++ List.replicate 16 0).take 16

/-- The programming section. -/
def programmingField (a : Acquisition) : List Byte :=
  field 1 a.state.code ++ field 1 (bit a.fault) ++ field 1 a.invalidCount ++ field 2 a.zero
  ++ field 1 a.activeMode.code ++ field 2 a.period ++ listField a.activeList
  ++ field 1 a.pendingMode.code ++ field 2 a.newPeriod ++ listField a.pendingList

/-- A channel entry: presence and SATURATED bits, and the value, 0 when absent (R184). -/
def entryField : Option ScanValue → List Byte
  | none => field 1 0 ++ field 2 0
  | some v => field 1 (bitSet [true, v.saturated]) ++ field 2 v.value

/-- The record section. -/
def recordField (r : ScanRecord) : List Byte :=
  field 2 r.seq ++ field 1 (bit r.valid) ++ (r.entries.map entryField).flatten

/-- READ SNAPSHOT after its length check. -/
def readSnapshotBody (_ : Link) (s : State) : State × Answer :=
  match s.acq.latest with
  | some r => (s, doneWith (programmingField s.acq ++ recordField r))
  | none => (s, { outcome := .noData, payload := programmingField s.acq })

/-- READ_SNAPSHOT. -/
def execReadSnapshot (s : State) : Host.Outcome State Fault Refusal :=
  .next (request 0x41 .anyLink (emptyPayload readSnapshotBody) s)

end Sys2Proof.Machine
end

