-- ==== Sys2Proof/Machine/Demand.lean ====
section
/-! DEFINITION. The Demand Table (09_demand_table_and_authority.md): the four groups with their field numbers and
ranges, and the steps SET_WHEEL, KEEP_WHEEL, SET_FEED, SET_TUNING, SET_PUMP, TAKE_PUMP, RECLAIM_PUMP, RELEASE_PUMP,
READ_DEMANDS, WHEEL_DEMAND_EXPIRY. -/

namespace Sys2Proof.Machine

/-! ## Fields and ranges (R153) -/

/-- The range of a WHEEL field; that of the manual differential is ±Dmax in force at the write (R155). -/
def wheelRange (dMax : Int) : Nat → Int × Int
  | 1 => (0, 400)
  | 2 => (0, 1)
  | 3 => (0, 1)
  | 4 => (-dMax, dMax)
  | 5 => (0, 100)
  | 6 => (0, 100)
  | 7 => (0, 100)
  | 8 => (0, 100)
  | _ => (-500, 500)

/-- Write a WHEEL field. -/
def WheelGroup.write (g : WheelGroup) (n : Nat) (v : Int) : WheelGroup :=
  match n with
  | 1 => { g with baseSpeed := v }
  | 2 => { g with direction := (dirOf v).getD g.direction }
  | 3 => { g with steer := (steerOf v).getD g.steer }
  | 4 => { g with manualDiff := v }
  | 5 => { g with manual := { g.manual with af := v } }
  | 6 => { g with manual := { g.manual with ar := v } }
  | 7 => { g with manual := { g.manual with bf := v } }
  | 8 => { g with manual := { g.manual with br := v } }
  | 9 => { g with targetX := v }
  | 10 => { g with targetY := v }
  | _ => g

/-- The values of the WHEEL fields, in field order. -/
def WheelGroup.values (g : WheelGroup) : List Int :=
  [g.baseSpeed, g.direction.code, g.steer.code, g.manualDiff, g.manual.af, g.manual.ar, g.manual.bf, g.manual.br,
    g.targetX, g.targetY]

/-- The range of a FEED field. -/
def feedRange : Nat → Int × Int
  | 1 => (0, 9999)
  | 2 => (0, 9999)
  | 3 => (1, 8)
  | 4 => (500, 10000)
  | _ => (0, 9999)

/-- Write a FEED field. -/
def FeedGroup.write (g : FeedGroup) (n : Nat) (v : Int) : FeedGroup :=
  match n with
  | 1 => { g with ceiling := v }
  | 2 => { g with tolerance := v }
  | 3 => { g with overfeedWindows := v }
  | 4 => { g with window := v }
  | 5 => { g with liftThreshold := v }
  | _ => g

/-- The values of the FEED fields, in field order. -/
def FeedGroup.values (g : FeedGroup) : List Int :=
  [g.ceiling, g.tolerance, g.overfeedWindows, g.window, g.liftThreshold]

/-- The range of a TUNING field (R97, R124, R130, R133). -/
def tuningRange : Nat → Int × Int
  | 1 => (0, 50000)
  | 2 => (0, 50000)
  | 3 => (0, 200)
  | 4 => (0, 100)
  | 5 => (0, 100)
  | 6 => (0, 100)
  | 7 => (1, 50)
  | 8 => (0, 5000)
  | 9 => (0, 500)
  | 10 => (0, 100)
  | 11 => (0, 100)
  | 12 => (0, 50)
  | 13 => (1, 10)
  | 14 => (1000, 30000)
  | 15 => (0, 40950)
  | 16 => (0, 400)
  | 17 => (100, 10000)
  | 18 => (0, 400)
  | 19 => (500, 30000)
  | 20 => (1, 3600)
  | 21 => (0, 400)
  | 22 => (0, 400)
  | 23 => (1, 500)
  | 24 => (0, 1000)
  | 25 => (0, 1000)
  | 26 => (0, 1000)
  | 27 => (10, 200)
  | _ => (500, 5000)

/-- Write a TUNING field. -/
def TuningGroup.write (g : TuningGroup) (n : Nat) (v : Int) : TuningGroup :=
  match n with
  | 1 => { g with dbX := v }
  | 2 => { g with dbY := v }
  | 3 => { g with gX := v }
  | 4 => { g with gY := v }
  | 5 => { g with dMax := v }
  | 6 => { g with yMax := v }
  | 7 => { g with rStep := v }
  | 8 => { g with lookAhead := v }
  | 9 => { g with dbT := v }
  | 10 => { g with gT := v }
  | 11 => { g with tMax := v }
  | 12 => { g with baseStroke := v }
  | 13 => { g with plateBand := v }
  | 14 => { g with travelTime := v }
  | 15 => { g with stallPressure := v }
  | 16 => { g with stallSpeed := v }
  | 17 => { g with confirmTime := v }
  | 18 => { g with reverseSpeed := v }
  | 19 => { g with reverseTime := v }
  | 20 => { g with lockoutWindow := v }
  | 21 => { g with companionSpeed := v }
  | 22 => { g with congestionSpeed := v }
  | 23 => { g with rampStep := v }
  | 24 => { g with kf := v }
  | 25 => { g with kp := v }
  | 26 => { g with ki := v }
  | 27 => { g with loopPeriod := v }
  | 28 => { g with pickupTimeout := v }
  | _ => g

/-- The values of the TUNING fields, in field order. -/
def TuningGroup.values (g : TuningGroup) : List Int :=
  [g.dbX, g.dbY, g.gX, g.gY, g.dMax, g.yMax, g.rStep, g.lookAhead, g.dbT, g.gT, g.tMax, g.baseStroke, g.plateBand,
    g.travelTime, g.stallPressure, g.stallSpeed, g.confirmTime, g.reverseSpeed, g.reverseTime, g.lockoutWindow,
    g.companionSpeed, g.congestionSpeed, g.rampStep, g.kf, g.kp, g.ki, g.loopPeriod, g.pickupTimeout]

/-- The range of a PUMP field (R153, R150). -/
def pumpRange : Nat → Int × Int
  | 1 => (0, 15000)
  | 2 => (1000, 3000)
  | 3 => (50, 100)
  | 4 => (0, 9999)
  | 5 => (1000, 30000)
  | 6 => (0, 15000)
  | 7 => (0, 1000000)
  | 8 => (0, 1000000)
  | 9 => (0, 4095)
  | 10 => (0, 4095)
  | 11 => (0, 1000)
  | 12 => (0, 1000)
  | 13 => (100, 10000)
  | _ => (500, 30000)

/-- Write a PUMP field. -/
def PumpGroup.write (g : PumpGroup) (n : Nat) (v : Int) : PumpGroup :=
  match n with
  | 1 => { g with flow := v }
  | 2 => { g with densityLimit := v }
  | 3 => { g with margin := v }
  | 4 => { g with blindAllowance := v }
  | 5 => { g with staleTime := v }
  | 6 => { g with qMin := v }
  | 7 => { g with bHi := v }
  | 8 => { g with bLo := v }
  | 9 => { g with psBlock := v }
  | 10 => { g with pdBlock := v }
  | 11 => { g with psHysteresis := v }
  | 12 => { g with pdHysteresis := v }
  | 13 => { g with confirmTime := v }
  | 14 => { g with recoveryTime := v }
  | _ => g

/-- The values of the PUMP fields, in field order. -/
def PumpGroup.values (g : PumpGroup) : List Int :=
  [g.flow, g.densityLimit, g.margin, g.blindAllowance, g.staleTime, g.qMin, g.bHi, g.bLo, g.psBlock, g.pdBlock,
    g.psHysteresis, g.pdHysteresis, g.confirmTime, g.recoveryTime]

/-! ## Writing a group (R154, R155) -/

/-- An entry of a group write: field number and value. -/
abbrev Entry := Nat × Int

/-- The enumerations of the WHEEL group name a direction and a steer mode (R154 check 4). -/
def wheelEntryOk (e : Entry) : Bool :=
  match e.1 with
  | 2 => (dirOf e.2).isSome
  | 3 => (steerOf e.2).isSome
  | _ => true

/-- Checks 2 to 4 of a group write, in order (R154): the entries, or the reason of the refusal. -/
def groupEntries (fields : Nat) (entryOk : Entry → Bool) (p : List Byte) : Except Reason (List Entry) :=
  let k := (p.headD 0).toNat
  if p.isEmpty ∨ p.length ≠ 1 + 5 * k then .error .badLength
  else
    let es := entriesOf k (p.drop 1)
    if k = 0 ∨ fields < k then .error .badValue
    else if es.any (fun e => e.1 = 0 || fields < e.1) ∨ ¬(es.map (·.1)).Nodup then .error .badValue
    else if es.all entryOk then .ok es
    else .error .badValue

/-- An entry with its value clamped to its field's range. -/
def clampEntry (range : Nat → Int × Int) (e : Entry) : Entry := (e.1, clamp (range e.1).1 (range e.1).2 e.2)

/-- Store the entries of a write. -/
def writeAll {G : Type} (write : G → Nat → Int → G) (g : G) (es : List Entry) : G :=
  es.foldl (fun g e => write g e.1 e.2) g

/-- A group write: its checks, and then the block's taking of the clamped entries (R154). -/
def writeGroup (fields : Nat) (entryOk : Entry → Bool) (range : Nat → Int × Int)
    (accept : List Entry → State → State) (p : List Byte) (s : State) : State × Answer :=
  match groupEntries fields entryOk p with
  | .error r => (s, refusal r)
  | .ok es =>
    let stored := es.map (clampEntry range)
    (accept stored s, { outcome := .done, clamped := stored != es })

/-! ## The wheel demand life (R157) -/

/-- Set or clear the wheel demand expiry, and tell the feed governor. -/
def setExpired (b : Bool) (s : State) : State :=
  govern (fun r => { r with wheel := b }) { s with demand := { s.demand with expired := b } }

/-- Renew the wheel demand. -/
def renewWheel (s : State) : State :=
  setExpired false { s with demand := { s.demand with life := some (s.inMs 2000) } }

/-- The Demand Table takes an accepted SET WHEEL; the Alignment Unit takes its mode change, if it is one (R95). -/
def acceptWheel (es : List Entry) (s : State) : State :=
  let s := { s with demand := { s.demand with wheel := writeAll WheelGroup.write s.demand.wheel es } }
  renewWheel (alignMode s)

/-- SET_WHEEL. -/
def execSetWheel (s : State) : Host.Outcome State Fault Refusal :=
  .next (request 0x20 .cabOnly (fun _ p s =>
    writeGroup 10 wheelEntryOk (wheelRange s.demand.tuning.dMax) acceptWheel p s) s)

/-- KEEP WHEEL after its length check. -/
def keepWheelBody (_ : Link) (s : State) : State × Answer := (renewWheel s, doneWith [])

/-- KEEP_WHEEL. -/
def execKeepWheel (s : State) : Host.Outcome State Fault Refusal :=
  .next (request 0x21 .cabOnly (emptyPayload keepWheelBody) s)

/-- The life timer expires. -/
def expireWheel (s : State) : State :=
  setExpired true (raise .wheelExpired { s with demand := { s.demand with life := none } })

/-- WHEEL_DEMAND_EXPIRY. -/
def execWheelDemandExpiry (s : State) : Host.Outcome State Fault Refusal :=
  .next (unlessReset s fun s => onExpiry s.demand.life s expireWheel)

/-! ## The other groups -/

/-- The Demand Table takes an accepted SET FEED. -/
def acceptFeed (es : List Entry) (s : State) : State :=
  { s with demand := { s.demand with feed := writeAll FeedGroup.write s.demand.feed es } }

/-- SET_FEED. -/
def execSetFeed (s : State) : Host.Outcome State Fault Refusal :=
  .next (request 0x22 .cabOnly (fun _ p s => writeGroup 5 (fun _ => true) feedRange acceptFeed p s) s)

/-- The Demand Table takes an accepted SET TUNING, and the Alignment Unit after it (R98). -/
def acceptTuning (es : List Entry) (s : State) : State :=
  alignTuning { s with demand := { s.demand with tuning := writeAll TuningGroup.write s.demand.tuning es } }

/-- SET_TUNING. -/
def execSetTuning (s : State) : Host.Outcome State Fault Refusal :=
  .next (request 0x23 .cabOnly (fun _ p s => writeGroup 28 (fun _ => true) tuningRange acceptTuning p s) s)

/-- The Demand Table takes an accepted SET PUMP. -/
def acceptPump (es : List Entry) (s : State) : State :=
  { s with demand := { s.demand with pump := writeAll PumpGroup.write s.demand.pump es } }

/-- SET_PUMP. -/
def execSetPump (s : State) : Host.Outcome State Fault Refusal :=
  .next (request 0x31 .pumpOwner (fun _ p s => writeGroup 14 (fun _ => true) pumpRange acceptPump p s) s)

/-! ## Pump-group ownership (R158 to R160) -/

/-- A transfer of the PUMP group (R158). -/
def transferPump (o : Owner) (s : State) : State :=
  raise .ownerChange
    { s with demand := { s.demand with owner := o, releasedPlant := false, releasedCab := false } }

/-- TAKE PUMP after its length check (R160). -/
def takePumpBody (_ : Link) (s : State) : State × Answer :=
  match s.demand.owner with
  | .cab => ({ s with demand := { s.demand with releasedCab := false } }, doneWith [])
  | .plant =>
    if s.demand.releasedPlant ∨ s.links.plant.silent then (transferPump .cab s, doneWith [])
    else (s, refusal .notReleased)

/-- TAKE_PUMP. -/
def execTakePump (s : State) : Host.Outcome State Fault Refusal :=
  .next (request 0x27 .cabOnly (emptyPayload takePumpBody) s)

/-- RECLAIM PUMP after its length check (R160). -/
def reclaimPumpBody (_ : Link) (s : State) : State × Answer :=
  match s.demand.owner with
  | .plant => ({ s with demand := { s.demand with releasedPlant := false } }, doneWith [])
  | .cab =>
    if s.demand.releasedCab ∨ s.links.cab.silent then (transferPump .plant s, doneWith [])
    else (s, refusal .notReleased)

/-- RECLAIM_PUMP. -/
def execReclaimPump (s : State) : Host.Outcome State Fault Refusal :=
  .next (request 0x30 .plantOnly (emptyPayload reclaimPumpBody) s)

/-- RELEASE PUMP after its length check (R159): the owner's released mark is set. -/
def releasePumpBody (_ : Link) (s : State) : State × Answer :=
  match s.demand.owner with
  | .plant => ({ s with demand := { s.demand with releasedPlant := true } }, doneWith [])
  | .cab => ({ s with demand := { s.demand with releasedCab := true } }, doneWith [])

/-- RELEASE_PUMP. -/
def execReleasePump (s : State) : Host.Outcome State Fault Refusal :=
  .next (request 0x33 .pumpOwner (emptyPayload releasePumpBody) s)

/-! ## READ DEMANDS (R161, 12.5) -/

/-- The readout of the Demand Table. -/
def demandsField (s : State) : List Byte :=
  let d := s.demand
  ((d.wheel.values ++ d.feed.values ++ d.tuning.values ++ d.pump.values).map (field 4)).flatten
  ++ field 1 d.owner.code ++ field 1 (bitSet [d.releasedPlant, d.releasedCab]) ++ field 1 (bit d.expired)
  ++ field 2 (s.leftMs d.life)

/-- READ DEMANDS after its length check. -/
def readDemandsBody (_ : Link) (s : State) : State × Answer := (s, doneWith (demandsField s))

/-- READ_DEMANDS. -/
def execReadDemands (s : State) : Host.Outcome State Fault Refusal :=
  .next (request 0x44 .anyLink (emptyPayload readDemandsBody) s)

end Sys2Proof.Machine
end

