-- ==== Sys2Proof/Machine/Archive.lean ====
section
/-! DEFINITION. The Panel Archive (11_panel_archive.md): slots, page images, erasing, reading, and the steps
READ_ARCHIVE, ARCHIVE_STATUS, ERASE_SLOT, WIPE_ARCHIVE, ERASE_COMPLETION. The close write is in Panel.lean. -/

namespace Sys2Proof.Machine

/-! ## Slots and engine -/

/-- One slot of the directory; a number above 7 names none. -/
def State.slot (s : State) (i : Nat) : Slot := s.archive.slots.getD i {}

/-- Change one slot. -/
def State.setSlot (s : State) (i : Nat) (x : Slot) : State :=
  { s with archive := { s.archive with slots := s.archive.slots.set i x } }

/-- Set the operation engine. -/
def State.setEngine (s : State) (e : Engine) : State := { s with archive := { s.archive with engine := e } }

/-- Whether an operation is in flight (R175). -/
def State.archiveBusy (s : State) : Bool := s.archive.engine != .idle

/-- The lowest-numbered EMPTY slot (R9). -/
def State.emptySlot (s : State) : Option Nat := s.archive.slots.findIdx? fun x => x.state = .empty

/-- The completion time of the engine's page program or erase. -/
def Engine.due : Engine → Timer
  | .idle => none
  | .reserved _ => none
  | .programming _ _ _ due => some due
  | .erase _ due => some due
  | .wipe _ _ due => some due

/-! ## Page images (R176, 12.4) -/

/-- The number of station pages of a panel of N stations: ceil(N / 16). -/
def stationPages (n : Nat) : Nat := (n + 15) / 16

/-- The deviation summary as 13 bytes (12.4, R185). -/
def summaryField (t : StationTable) : List Byte :=
  field 2 (reportedOffset t.summary.worstX) ++ indexField t.summary.worstXAt
  ++ field 2 (reportedOffset t.summary.worstY) ++ indexField t.summary.worstYAt
  ++ field 2 t.summary.exceedsX ++ field 2 t.summary.exceedsY ++ field 1 (bitSet [t.firstX, t.firstY])

/-- The header page. -/
def headerPage (s : State) : List Byte :=
  geometryField s.geometry ++ field 2 s.geometry.stations ++ summaryField s.table ++ s.drives.counterField
  ++ field 1 s.ret.state.code

/-- Station page p, from 1. -/
def stationPage (s : State) (p : Nat) : List Byte := (stationEntries s.table.records (16 * (p - 1)) 16).flatten

/-- Every page of the panel, header first, as the table stands. -/
def panelPages (s : State) : List (List Byte) :=
  headerPage s :: (List.range (stationPages s.geometry.stations)).map fun p => stationPage s (p + 1)

/-! ## Erasing (R178, R179) -/

/-- Start erasing a slot: it enters ERASING. -/
def eraseSlot (i : Nat) (s : State) : State := s.setSlot i { s.slot i with state := .erasing }

/-- The end of one slot's erase: EMPTY, or FAULTY with ARCHIVE_FAULT. -/
def eraseEnd (i : Nat) (blank : Bool) (s : State) : State :=
  if blank then s.setSlot i {}
  else raise .archiveFault (s.setSlot i { s.slot i with state := .faulty })

/-- Start the erase of the first slot of a list, as a wipe; with none left the wipe ends. -/
def wipeNext (rest : List Nat) (s : State) : State :=
  match rest with
  | i :: is => (eraseSlot i s).setEngine (.wipe i is (s.inMs 400))
  | [] => raise .archiveDone (s.setEngine .idle)

/-- An erase completion. -/
def eraseDone (blank : Bool) (s : State) : State :=
  match s.archive.engine with
  | .erase i _ => raise .archiveDone ((eraseEnd i blank s).setEngine .idle)
  | .wipe i rest _ => wipeNext rest (eraseEnd i blank s)
  | .idle | .reserved _ | .programming _ _ _ _ => s

/-- The erase in flight, with its completion time. -/
def Engine.erasing : Engine → Timer
  | .erase _ due => some due
  | .wipe _ _ due => some due
  | .idle | .reserved _ | .programming _ _ _ _ => none

/-- ERASE_COMPLETION. -/
def execEraseCompletion (blank : Bool) (s : State) : Host.Outcome State Fault Refusal :=
  .next (unlessReset s fun s => onExpiry s.archive.engine.erasing s (eraseDone blank))

/-- ERASE SLOT after its length check (R178). -/
def eraseSlotBody (_ : Link) (p : List Byte) (s : State) : State × Answer :=
  let i := (p.headD 0).toNat
  if s.archiveBusy then (s, refusal .busy)
  else if 7 < i then (s, refusal .badValue)
  else match (s.slot i).state with
    | .held => (s, refusal .notReleased)
    | .released | .faulty => ((eraseSlot i s).setEngine (.erase i (s.inMs 400)), { outcome := .accepted })
    | .empty | .writing | .erasing => (s, refusal .wrongState)

/-- ERASE_SLOT. -/
def execEraseSlot (s : State) : Host.Outcome State Fault Refusal :=
  .next (request 0x52 .recordOnly (payloadOf 1 eraseSlotBody) s)

/-- The slots that a wipe erases: those not EMPTY, in ascending order (R179). -/
def State.slotsToWipe (s : State) : List Nat :=
  (List.range s.archive.slots.length).filter fun i => (s.slot i).state != .empty

/-- WIPE ARCHIVE after its length check (R179). -/
def wipeArchiveBody (_ : Link) (s : State) : State × Answer :=
  if s.archiveBusy then (s, refusal .busy) else (wipeNext s.slotsToWipe s, { outcome := .accepted })

/-- WIPE_ARCHIVE. -/
def execWipeArchive (s : State) : Host.Outcome State Fault Refusal :=
  .next (request 0x53 .recordOnly (emptyPayload wipeArchiveBody) s)

/-! ## Reading and release (R180) -/

/-- The page numbers of a read: after the last page the order wraps to page 0. -/
def pageNumbers (pageCount first count : Nat) : List Nat :=
  (List.range count).map fun i => (first + i) % pageCount

/-- One page of the reply: page number, length, page (12.4). -/
def pageField (x : Slot) (p : Nat) : List Byte :=
  let page := x.pages.getD p []
  field 1 p ++ field 2 page.length ++ page

/-- The read mark of one page. -/
def pageMark (p : Nat) : BitVec 65 := 1#65 <<< p

/-- Set the read marks of pages. -/
def markPages (marks : BitVec 65) (pages : List Nat) : BitVec 65 := pages.foldl (fun m p => m ||| pageMark p) marks

/-- Whether every page of a slot has its read mark set. -/
def allRead (marks : BitVec 65) (pageCount : Nat) : Bool := (List.range pageCount).all fun p => marks.getLsbD p

/-- A slot after a read: the marks of the pages, and the release of a HELD slot read through. -/
def readSlot (x : Slot) (pageCount : Nat) (pages : List Nat) : Slot :=
  let marks := markPages x.readMarks pages
  { x with
    readMarks := marks
    state := if x.state = .held ∧ allRead marks pageCount then .released else x.state }

/-- READ ARCHIVE after its length check (R180). -/
def readArchiveBody (_ : Link) (p : List Byte) (s : State) : State × Answer :=
  let i := (unsignedAt p 0 1).toNat
  let first := (unsignedAt p 1 1).toNat
  let count := (unsignedAt p 2 1).toNat
  let x := s.slot i
  let pageCount := x.pageCount.getD 0
  if s.archiveBusy then (s, refusal .busy)
  else if 7 < i ∨ count = 0 ∨ 4 < count then (s, refusal .badValue)
  else if x.state ≠ .held ∧ x.state ≠ .released then (s, refusal .wrongState)
  else if pageCount ≤ first ∨ pageCount < count then (s, refusal .badValue)
  else
    let pages := pageNumbers pageCount first count
    (s.setSlot i (readSlot x pageCount pages), doneWith ((pages.map (pageField x)).flatten))

/-- READ_ARCHIVE. -/
def execReadArchive (s : State) : Host.Outcome State Fault Refusal :=
  .next (request 0x50 .recordOnly (payloadOf 3 readArchiveBody) s)

/-! ## ARCHIVE STATUS (R181, 12.5) -/

/-- One slot entry. -/
def slotField (x : Slot) : List Byte :=
  field 1 x.state.code ++ field 4 (x.panelId.getD 0) ++ field 1 (x.pageCount.getD 0 : Nat)
  ++ field 9 x.readMarks.toNat

/-- The engine state: code, slot, close write stage, page in progress, slots still to erase. -/
def engineField (e : Engine) : List Byte :=
  field 1 e.code ++ match e with
    | .idle => field 1 0xFF ++ field 3 0
    | .reserved i => field 1 i ++ field 1 0 ++ field 1 0 ++ field 1 0
    | .programming i p _ _ => field 1 i ++ field 1 1 ++ field 1 p ++ field 1 0
    | .erase i _ => field 1 i ++ field 1 0 ++ field 1 0 ++ field 1 0
    | .wipe i rest _ => field 1 i ++ field 1 0 ++ field 1 0 ++ field 1 rest.length

/-- ARCHIVE STATUS after its length check. -/
def archiveStatusBody (_ : Link) (s : State) : State × Answer :=
  (s, doneWith ((s.archive.slots.map slotField).flatten ++ engineField s.archive.engine))

/-- ARCHIVE_STATUS. -/
def execArchiveStatus (s : State) : Host.Outcome State Fault Refusal :=
  .next (request 0x51 .recordOnly (emptyPayload archiveStatusBody) s)

end Sys2Proof.Machine
end

