-- ==== Sys2Proof/Machine/Panel.lean ====
section
/-! DEFINITION. The Panel Controller (01_panels_and_geometry.md) and the close write (11.3): the steps OPEN_PANEL,
CLOSE_PANEL, ABANDON_PANEL, EXTEND_DEPTH, RESTITCH_STEP_COMPLETION, PAGE_PROGRAM_COMPLETION. -/

namespace Sys2Proof.Machine

/-! ## The geometry check (R3, R4) -/

/-- The greatest station count. -/
def maxStations : Nat := 1024

/-- The greatest span, in mm. -/
def maxSpan : Int := 200000

/-- Whether a design depth is out of range for a start depth and spacing (R3). -/
def badDesign (g : Geometry) : Bool :=
  g.design < g.start || maxSpan < g.design - g.start || maxStations < g.stations

/-- Whether a value lies outside a range. -/
def outside (lo hi x : Int) : Bool := x < lo || hi < x

/-- The first field of a record that is out of range, in field-number order (R3). -/
def firstBadField (g : Geometry) : Option Nat :=
  if outside 100 500 g.spacing then some 2
  else if outside 0 20000 g.start then some 3
  else if badDesign g then some 4
  else if outside 1500 4500 g.length then some 5
  else if outside 500 2000 g.width then some 6
  else if outside 1500 3000 g.groundDensity then some 7
  else if outside 10 10000 g.encoderStep then some 8
  else if outside 1 64 g.pprWheel then some 9
  else if outside 1 64 g.pprPump then some 10
  else if outside 100 5000 g.displacement then some 11
  else if outside 0 20000 g.settleDistance then some 12
  else if outside 50 5000 g.repassHeight then some 13
  else if outside 1 200 g.tolerance then some 14
  else none

/-! ## Panel state -/

/-- Change the panel state, and tell the feed governor (R1, R47). -/
def setPanel (p : PanelState) (s : State) : State :=
  govern (fun r => { r with panel := p ≠ .active }) { s with panel := p }

/-! ## OPEN PANEL (R6 to R8) -/

/-- The count and window start when the encoder step changes (R8). -/
def rescaled (g : Geometry) (d : DepthCounter) : DepthCounter :=
  if withinBound (depthUm g d.count) then d
  else { d with count := 0, windowStart := d.windowStart - d.count }

/-- The Depth Counter at the panel-open event, but for the feed governor (R7, R8). -/
def openDepth (g : Geometry) (stepChanged : Bool) (d : DepthCounter) : DepthCounter :=
  let d := { d with final := false }
  if stepChanged then { rescaled g d with ref := .unreferenced }
  else if d.ref = .unreferenced then d
  else { d with floor := floorAt g (depthUm g d.count) }

/-- The feed governor at the panel-open event: PANEL and FINAL are removed, and REFERENCE is added when the encoder
step changes. The owners' reports come in no order (R7, R47): which is first is a free choice (log entry 1). -/
def openGovernor (stepChanged : Bool) (s : State) : State :=
  let removal : State → State := govern fun r => { r with panel := false, final := false }
  let addition : State → State := govern fun r => { r with reference := true }
  if stepChanged then
    if s.choice then addition (removal s.drawn) else removal (addition s.drawn)
  else removal s

/-- The panel-open event (R7). -/
def openPanel (g : Geometry) (s : State) : State :=
  let stepChanged := g.encoderStep != s.geometry.encoderStep
  openGovernor stepChanged { s with
    panel := .active
    geometry := g
    depth := openDepth g stepChanged s.depth
    table := s.table.emptied
    drives := zeroTallies s.drives
    ret := { s.ret with backlog := 0 } }

/-- OPEN PANEL after its length check (R6). -/
def openPanelBody (_ : Link) (p : List Byte) (s : State) : State × Answer :=
  if s.panel = .active ∨ s.panel = .closing then (s, refusal .wrongState)
  else
    let g := geometryOf p
    match firstBadField g with
    | some n => (s, refusal .badValue (field 1 n))
    | none => (openPanel g s, doneWith [])

/-- OPEN_PANEL. -/
def execOpenPanel (s : State) : Host.Outcome State Fault Refusal :=
  .next (request 0x10 .cabOnly (payloadOf geometryBytes openPanelBody) s)

/-! ## CLOSE PANEL and its stages (R9 to R11, R177) -/

/-- The OPEN records, in ascending order. -/
def openStations (rs : List Station) : List Nat := (rs.filter fun r => r.state = .opened).map (·.index)

/-- The write stage starts: page 0 of the reserved slot is programmed, from the values as they stand (R10). -/
def startWrite (slot : Nat) (s : State) : State := s.setEngine (.programming slot 0 (panelPages s) (s.inMs 5))

/-- The settle stage and, after it, the start of the write stage, once the walker is IDLE (R10). -/
def endWalkStage (s : State) : State :=
  match s.archive.engine, s.table.walker with
  | .reserved slot, none => startWrite slot (settleEach (openStations s.table.records) s)
  | _, _ => s

/-- The reservation of a slot for the close write (R177). -/
def reservedSlot (g : Geometry) : Slot :=
  { state := .writing, panelId := some g.panelId, pageCount := some (stationPages g.stations + 1) }

/-- CLOSE PANEL after its length check (R9). -/
def closePanelBody (_ : Link) (s : State) : State × Answer :=
  if s.panel ≠ .active then (s, refusal .wrongState)
  else if s.archiveBusy then (s, refusal .busy)
  else match s.emptySlot with
    | none => (s, refusal .noSlot)
    | some i =>
      let s := (s.setSlot i (reservedSlot s.geometry)).setEngine (.reserved i)
      (endWalkStage (setPanel .closing s), { outcome := .accepted })

/-- CLOSE_PANEL. -/
def execClosePanel (s : State) : Host.Outcome State Fault Refusal :=
  .next (request 0x11 .cabOnly (emptyPayload closePanelBody) s)

/-- A restitch step completes (R66); the walker going IDLE ends a waiting walk stage (R10). -/
def restitchDone (w : Walker) (s : State) : State :=
  let s := restitch w s
  if s.panel = .closing then endWalkStage s else s

/-- RESTITCH_STEP_COMPLETION. With the walker IDLE it has no effect (R12). -/
def execRestitchStepCompletion (s : State) : Host.Outcome State Fault Refusal :=
  .next (unlessReset s fun s =>
    match s.table.walker with
    | some w => restitchDone w (s.reach w.due)
    | none => s)

/-- The close write ends: ARCHIVE_DONE, the engine IDLE, the panel CLOSED, and every WAITING hold is reviewed
(R11, R76, R177). -/
def closeWriteEnd (s : State) : State :=
  reviewHolds (setPanel .closed (raise .archiveDone (s.setEngine .idle)))

/-- A page program completes: the page is verified (R177). -/
def pageDone (verified : Bool) (s : State) : State :=
  match s.archive.engine with
  | .programming i page image _ =>
    let x := s.slot i
    if verified then
      let x := { x with pages := x.pages ++ [image.getD page []] }
      if page + 1 < image.length then
        (s.setSlot i x).setEngine (.programming i (page + 1) image (s.inMs 5))
      else closeWriteEnd (s.setSlot i { x with state := .held })
    else closeWriteEnd (raise .archiveFault (s.setSlot i { x with state := .faulty }))
  | .idle | .reserved _ | .erase _ _ | .wipe _ _ _ => s

/-- The page program in flight, with its completion time. -/
def Engine.programmingDue : Engine → Timer
  | .programming _ _ _ due => some due
  | .idle | .reserved _ | .erase _ _ | .wipe _ _ _ => none

/-- PAGE_PROGRAM_COMPLETION. -/
def execPageProgramCompletion (verified : Bool) (s : State) : Host.Outcome State Fault Refusal :=
  .next (unlessReset s fun s => onExpiry s.archive.engine.programmingDue s (pageDone verified))

/-! ## ABANDON PANEL (R12) -/

/-- ABANDON PANEL after its length check. -/
def abandonPanelBody (_ : Link) (s : State) : State × Answer :=
  match s.panel with
  | .idle => (s, refusal .wrongState)
  | .closing => (s, refusal .busy)
  | .active | .closed => (setPanel .idle { s with table := s.table.emptied }, doneWith [])

/-- ABANDON_PANEL. -/
def execAbandonPanel (s : State) : Host.Outcome State Fault Refusal :=
  .next (request 0x12 .cabOnly (emptyPayload abandonPanelBody) s)

/-! ## EXTEND DEPTH (R13) -/

/-- The panel takes a new design depth: the final-depth condition is cleared if the new last station lies below the
frame. -/
def extendDesign (g : Geometry) (s : State) : State :=
  let s := { s with geometry := g }
  if s.depthNow < g.depthOf (g.stations - 1) * 1000 then setFinal false s else s

/-- EXTEND DEPTH after its length check. -/
def extendDepthBody (_ : Link) (p : List Byte) (s : State) : State × Answer :=
  let g := { s.geometry with design := unsignedAt p 0 4 }
  if s.panel ≠ .active then (s, refusal .wrongState)
  else if g.design ≤ s.geometry.design ∨ badDesign g then (s, refusal .badValue (field 1 4))
  else (extendDesign g s, doneWith [])

/-- EXTEND_DEPTH. -/
def execExtendDepth (s : State) : Host.Outcome State Fault Refusal :=
  .next (request 0x13 .cabOnly (payloadOf 4 extendDepthBody) s)

end Sys2Proof.Machine
end

