-- ==== Sys2Proof/Machine/LinkOps.lean ====
section
/-! DEFINITION. The Link Interface (10_master_links.md): the receivers, silence, and the steps FRAME_RECEIVED,
BYTE_PAUSE_TIMEOUT, REPLY_SENT, SILENCE_EXPIRY, UNKNOWN_REQUEST, RESTART, READ_FLAGS, CLEAR_FLAGS, SET_MASK. -/

namespace Sys2Proof.Machine

/-! ## Receivers (R163 to R165, R169) -/

/-- A valid frame arrives: the silence timer is reloaded, the link is ACTIVE, and the frame joins the receive queue,
or is discarded with the overrun mark (R165, R169). -/
def acceptFrame (silence : Nat) (f : Frame) (x : LinkState) : LinkState :=
  let x := { x with silence := some silence, silent := false }
  if x.rx.length < 4 then { x with rx := x.rx ++ [f] } else { x with overrun := true }

/-- A frame is discarded with LINK_ERROR in the link's own set (R163, R170). -/
def discardFrame (x : LinkState) : LinkState := x.raise .linkError

/-- The bytes after the marker of a complete frame: sequence, kind, length, payload, check. Its check passes when
the last two bytes are the check of the ones before (R164). -/
def checkPasses (body : List Byte) : Bool :=
  checkBytes (body.take (body.length - 2)) = body.drop (body.length - 2)

/-- The frame of the bytes after the marker. -/
def frameOf (body : List Byte) : Frame :=
  { seq := body.getD 0 0, kind := body.getD 1 0, payload := (body.drop 3).take (body.length - 5) }

/-- The receiver takes one byte (R163). -/
def receiveByte (silence : Nat) (x : LinkState) (b : Byte) : LinkState :=
  match x.receiver with
  | none => if b = marker then { x with receiver := some [] } else x
  | some got =>
    let body := got ++ [b]
    let length := (body.getD 2 0).toNat
    if body.length < 3 then { x with receiver := some body }
    else if 240 < length then discardFrame { x with receiver := none }
    else if body.length < 5 + length then { x with receiver := some body }
    else if checkPasses body then acceptFrame silence (frameOf body) { x with receiver := none }
    else discardFrame { x with receiver := none }

/-- The pause timer runs while a frame is in progress: it expires when more than 10 ms have passed since the last
byte (R163). -/
def setPause (due : Nat) (x : LinkState) : LinkState :=
  { x with bytePause := if x.receiver.isSome then some due else none }

/-- Bytes arrive on a link, with no pause between them. -/
def receiveBytes (l : Link) (bytes : List Byte) (s : State) : State :=
  if bytes.isEmpty then s
  else s.setLink l (setPause (s.clock + 10001) (bytes.foldl (receiveByte (s.inMs 3000)) (s.link l)))

/-- FRAME_RECEIVED. -/
def execFrameReceived (l : Link) (bytes : List Byte) (s : State) : Host.Outcome State Fault Refusal :=
  .next (unlessReset s (receiveBytes l bytes))

/-- The frame in progress is ended by a pause (R163). -/
def pauseFrame (l : Link) (s : State) : State :=
  s.setLink l (discardFrame { s.link l with receiver := none, bytePause := none })

/-- BYTE_PAUSE_TIMEOUT. -/
def execBytePauseTimeout (l : Link) (s : State) : Host.Outcome State Fault Refusal :=
  .next (unlessReset s fun s => onExpiry (s.link l).bytePause s (pauseFrame l))

/-- The oldest reply of a link leaves it (R166, R167). -/
def sendReply (l : Link) (s : State) : State :=
  match (s.link l).replies with
  | [] => s
  | r :: rs => s.setLink l { s.link l with replies := rs, lastSent := some (replyBytes r) }

/-- REPLY_SENT. -/
def execReplySent (l : Link) (s : State) : Host.Outcome State Fault Refusal :=
  .next (unlessReset s (sendReply l))

/-- A link falls silent (R169). -/
def fallSilent (l : Link) (s : State) : State :=
  raise .linkSilent (s.setLink l { s.link l with silent := true, silence := none })

/-- SILENCE_EXPIRY. -/
def execSilenceExpiry (l : Link) (s : State) : Host.Outcome State Fault Refusal :=
  .next (unlessReset s fun s => onExpiry (s.link l).silence s (fallSilent l))

/-! ## Requests of the Link Interface -/

/-- The kinds of the request table (10.3). -/
def requestKinds : List Byte :=
  [0x10, 0x11, 0x12, 0x13, 0x14, 0x20, 0x21, 0x22, 0x23, 0x24, 0x25, 0x26, 0x27, 0x2F, 0x30, 0x31, 0x32, 0x33,
    0x40, 0x41, 0x42, 0x43, 0x44, 0x45, 0x46, 0x47, 0x48, 0x50, 0x51, 0x52, 0x53, 0x54]

/-- The granted request is refused UNKNOWN, if its kind names no request (R167). -/
def unknownRequest (s : State) : State :=
  match grant s with
  | some (l, f) =>
    if f.kind ∈ requestKinds then s else buildReply l f (refusal .unknown) (takeHead l s)
  | none => s

/-- UNKNOWN_REQUEST. -/
def execUnknownRequest (s : State) : Host.Outcome State Fault Refusal := .next (unlessReset s unknownRequest)

/-- RESTART after its length check: the engine takes no further request until the WARM (R15). -/
def restartBody (_ : Link) (s : State) : State × Answer :=
  ({ s with links := { s.links with restarting := true } }, doneWith [])

/-- RESTART. -/
def execRestart (s : State) : Host.Outcome State Fault Refusal :=
  .next (request 0x2F .cabOnly (emptyPayload restartBody) s)

/-- READ FLAGS after its length check (R172). -/
def readFlagsBody (l : Link) (s : State) : State × Answer :=
  (s, doneWith (flagField (s.link l).flags ++ flagField (s.link l).mask))

/-- READ_FLAGS. -/
def execReadFlags (s : State) : Host.Outcome State Fault Refusal :=
  .next (request 0x46 .anyLink (emptyPayload readFlagsBody) s)

/-- CLEAR FLAGS after its length check (R172, R183). -/
def clearFlagsBody (l : Link) (p : List Byte) (s : State) : State × Answer :=
  (s.setLink l { s.link l with flags := (s.link l).flags &&& ~~~flagsOf p }, doneWith [])

/-- CLEAR_FLAGS. -/
def execClearFlags (s : State) : Host.Outcome State Fault Refusal :=
  .next (request 0x47 .anyLink (payloadOf 3 clearFlagsBody) s)

/-- SET MASK after its length check (R171, R183). -/
def setMaskBody (l : Link) (p : List Byte) (s : State) : State × Answer :=
  (s.setLink l { s.link l with mask := flagsOf p }, doneWith [])

/-- SET_MASK. -/
def execSetMask (s : State) : Host.Outcome State Fault Refusal :=
  .next (request 0x48 .anyLink (payloadOf 3 setMaskBody) s)

end Sys2Proof.Machine
end

