-- ==== Sys2Proof/Machine/Readout.lean ====
section
/-! DEFINITION. READ_STATUS (R172): the sections of 12_frame_and_record_formats.md 12.5, each with the fields that the
blocks' chapters name (R51, R99, R125, R135, R151). -/

namespace Sys2Proof.Machine

/-- Panel section, 15 bytes. -/
def panelSection (s : State) : List Byte :=
  field 1 s.panel.code ++ field 4 s.geometry.panelId ++ field 2 s.geometry.stations ++ field 4 s.geometry.design
  ++ field 4 s.geometry.area

/-- Depth section, 15 bytes (R51). -/
def depthSection (s : State) : List Byte :=
  let d := s.depth
  field 4 (reportedDepth s.depthNow) ++ field 1 d.ref.code ++ field 2 d.floor ++ field 1 (bit d.final)
  ++ field 2 d.lastFeed ++ field 1 d.overCount ++ field 1 (bit d.overfeed) ++ field 2 d.reasons.bits
  ++ field 1 (bit d.feedHold)

/-- Acquisition section, 3 bytes. -/
def acquisitionSection (s : State) : List Byte :=
  field 1 s.acq.state.code ++ field 1 (bit s.acq.fault) ++ field 1 s.acq.invalidCount

/-- Station Table section, 23 bytes (R52, R60, R63, R71). The cursor of an IDLE walker is an absent index (R184).
The current byte is 0 while there is no reference station: the spec does not give it then. The model's choice: log
entry 36. -/
def tableSection (s : State) : List Byte :=
  let t := s.table
  field 2 t.records.length ++ field 1 (bit t.walker.isSome) ++ indexField (t.walker.map (·.cursor))
  ++ field 2 (t.records.filter (·.stale)).length ++ indexField t.reference ++ field 1 (bit t.currentReference.isSome)
  ++ summaryField t

/-- The stage record, 27 bytes (R99). -/
def stageField (g : StageRecord) : List Byte :=
  field 2 g.seq ++ field 2 g.delta ++ field 5 g.px ++ field 4 g.ex ++ field 1 g.raw ++ field 5 g.py ++ field 4 g.ey
  ++ field 1 g.yDem ++ field 2 g.tw ++ field 1 g.tDem

/-- Alignment section, 10 bytes, and the stage record while there is one. -/
def alignSection (s : State) : List Byte :=
  let a := s.align
  field 1 a.steer.code ++ field 1 a.status.code ++ field 1 a.cause.code ++ field 2 a.diff
  ++ field 1 a.demands.af ++ field 1 a.demands.ar ++ field 1 a.demands.bf ++ field 1 a.demands.br
  ++ field 1 (bit a.stage.isSome) ++ (a.stage.map stageField).getD []

/-- The fields that every drive has: target, working demand, applied duty, speed. -/
def motorField (m : Motor) : List Byte :=
  field 2 m.target ++ field 2 m.working ++ field 2 m.applied ++ field 2 m.speed

/-- The age in ms of entry `k` of a stall list, 0 where absent. -/
def stallAge (nowMs : Nat) (stalls : List Nat) (k : Nat) : Int :=
  ((stalls[k]?).map fun e => ((nowMs - e : Nat) : Int)).getD 0

/-- A wheel drive's section, 26 bytes (R125). -/
def wheelSection (nowMs : Nat) (d : WheelDrive) : List Byte :=
  field 1 d.state.code ++ field 1 d.dirOut.code ++ field 1 d.dirStatus.code ++ motorField d.motor
  ++ field 1 d.stalls.length ++ field 4 (stallAge nowMs d.stalls 0) ++ field 4 (stallAge nowMs d.stalls 1)
  ++ field 4 (stallAge nowMs d.stalls 2) ++ field 1 (bit d.confirm.isSome) ++ field 1 (bit d.loaded)

/-- Drive P's section, 11 bytes: its direction is FORWARD. -/
def pumpSection (d : PumpDrive) : List Byte :=
  field 1 d.state.code ++ field 1 Dir.forward.code ++ field 1 DirStatus.forward.code ++ motorField d.motor

/-- A plate's section, 6 bytes (R135). -/
def plateSection (s : State) (p : Plate) : List Byte :=
  field 1 p.state.code ++ field 1 (bitSet [p.extend, p.retract])
  ++ field 1 (p.lastStroke.getD 0xFF) ++ field 1 p.effective ++ field 2 (s.leftMs p.travel)

/-- The override byte: its causes, and bit 7 while it is active (12.3). -/
def overrideSection (o : Override) : List Byte :=
  field 1 (bitSet [o.panel, o.lift, o.blocked, false, false, false, false, o.active])

/-- Return section, 26 bytes (R151). -/
def returnSection (s : State) : List Byte :=
  let b := s.ret
  let r := b.report.getD { flow := 0, returnDensity := 0, supplyDensity := 0 }
  field 1 b.state.code ++ field 4 b.backlog ++ field 1 (bitSet [b.report.isSome, b.fresh]) ++ field 2 r.flow
  ++ field 2 r.returnDensity ++ field 2 r.supplyDensity ++ field 2 (s.leftMs b.staleTimer) ++ field 4 b.capacity
  ++ field 2 b.allowance ++ field 2 b.limit ++ field 2 (s.leftMs b.confirm) ++ field 2 (s.leftMs b.recovery)

/-- A link's section, 4 bytes (R172). -/
def linkSection (s : State) (l : Link) : List Byte :=
  let x := s.link l
  field 1 (bit x.silent) ++ field 1 x.rx.length ++ field 1 x.replies.length ++ field 1 (s.table.hold l).code

/-- The payload of READ STATUS. -/
def statusField (s : State) : List Byte :=
  panelSection s ++ depthSection s ++ acquisitionSection s ++ tableSection s ++ alignSection s
  ++ wheelSection s.nowMs s.drives.a ++ wheelSection s.nowMs s.drives.b ++ pumpSection s.drives.p
  ++ plateSection s s.plates.af ++ plateSection s s.plates.ar ++ plateSection s s.plates.bf
  ++ plateSection s s.plates.br ++ overrideSection s.plates.override ++ returnSection s
  ++ linkSection s .cab ++ linkSection s .plant ++ linkSection s .record

/-- READ STATUS after its length check. -/
def readStatusBody (_ : Link) (s : State) : State × Answer := (s, doneWith (statusField s))

/-- READ_STATUS. -/
def execReadStatus (s : State) : Host.Outcome State Fault Refusal :=
  .next (request 0x40 .anyLink (emptyPayload readStatusBody) s)

end Sys2Proof.Machine
end

