-- ==== Sys2Proof/Machine/Reset.lean ====
section
/-! DEFINITION. The two resets (1.8), and the steps RESET_LINE_ASSERT, COLD, WARM. -/

namespace Sys2Proof.Machine

/-! ## COLD (R14) -/

/-- A slot at COLD: WRITING and ERASING become FAULTY (R182). -/
def coldSlot (x : Slot) : Slot :=
  if x.state = .writing ∨ x.state = .erasing then { x with state := .faulty } else x

/-- The archive at COLD: the engine IDLE, the directory and pages kept but for the interrupted slot (R182). -/
def coldArchive (a : Archive) : Archive := { slots := a.slots.map coldSlot, engine := .idle }

/-- Every block at its COLD values. What is not a block's volatile state is kept: the archive's store, the levels of
the encoder lines (read afresh, R50), the count of free choices and the waiting commands. -/
def coldState (s : State) : State :=
  { State.reset with
    depth := { State.reset.depth with lineA := s.depth.lineA, lineB := s.depth.lineB }
    archive := coldArchive s.archive
    draws := s.draws
    pending := s.pending }

/-- RESET_LINE_ASSERT: every block is held at its COLD values while the line is asserted (R14). -/
def execResetLineAssert (s : State) : Host.Outcome State Fault Refusal :=
  .next { coldState s with resetLine := true }

/-- COLD: at power-on, or when the line is released, every block runs from its COLD values (R14). -/
def execCold (s : State) : Host.Outcome State Fault Refusal := .next (coldState s)

/-! ## WARM (R15) -/

/-- A link at WARM (R174). -/
def warmLink (x : LinkState) : LinkState :=
  { silent := x.silent, silence := x.silence, lastSent := x.lastSent }

/-- The Link Interface at WARM (R174). -/
def warmLinks (n : Links) : Links :=
  { cab := warmLink n.cab, plant := warmLink n.plant, record := warmLink n.record }

/-- The Acquisition Unit at WARM: the COLD values from now on, with the zero value kept (R34). -/
def warmAcq (s : State) : Acquisition :=
  { scanTimer := some (s.inMs 50), conversion := some (s.inMs 20), zero := s.acq.zero }

/-- A wheel drive at WARM (R126): the loop timer, the capture timer and the counters are kept. -/
def warmWheel (d : WheelDrive) : WheelDrive :=
  { motor := { lastEdge := d.motor.lastEdge, loopTimer := d.motor.loopTimer, rev := d.motor.rev }
    loadedTime := d.loadedTime
    bands := d.bands }

/-- The Plate Drive at WARM: the override is kept as it was judged (R136). -/
def warmPlates (p : Plates) : Plates := { override := p.override }

/-- The Demand Table at WARM (R162). -/
def warmDemand (d : DemandTable) : DemandTable :=
  { d with wheel := {}, life := none, expired := true }

/-- The feed governor's reasons at WARM (R49). -/
def warmReasons (r : HoldReasons) : HoldReasons :=
  { r with driveA := true, driveB := true, wheel := true, acqOff := false, acqFault := false }

/-- The WARM reset. -/
def warmState (s : State) : State :=
  govern warmReasons { s with
    acq := warmAcq s
    table := s.table.mapHolds fun _ => .free
    align := {}
    drives := { s.drives with a := warmWheel s.drives.a, b := warmWheel s.drives.b }
    plates := warmPlates s.plates
    demand := warmDemand s.demand
    links := warmLinks s.links }

/-- Whether the WARM is due: an accepted RESTART awaits it, and the last byte of its reply has left the Cab link (R15).
The RESTART reply is the last of Cab's reply queue, since the engine takes no request after it. -/
def State.warmDue (s : State) : Bool := s.links.restarting && s.links.cab.replies.isEmpty

/-- WARM: it takes effect when it is due, and does not happen otherwise (R15; log entry 8). -/
def execWarm (s : State) : Host.Outcome State Fault Refusal :=
  .next (unlessReset s fun s => if s.warmDue then warmState s else s)

end Sys2Proof.Machine
end

