-- ==== Sys2Proof/Machine/Dispatch.lean ====
section
/-! DEFINITION. One arm per row of the opcode table: the command's meaning. -/

namespace Sys2Proof.Machine

/-- The effect of a command on everything but the queue. -/
def exec (i : Instr) (s : State) : Host.Outcome State Fault Refusal :=
  match i with
  | .resetLineAssert => Sys2Proof.Machine.execResetLineAssert s
  | .cold => Sys2Proof.Machine.execCold s
  | .warm => Sys2Proof.Machine.execWarm s
  | .frameReceived l bytes => Sys2Proof.Machine.execFrameReceived l bytes s
  | .bytePauseTimeout l => Sys2Proof.Machine.execBytePauseTimeout l s
  | .replySent l => Sys2Proof.Machine.execReplySent l s
  | .silenceExpiry l => Sys2Proof.Machine.execSilenceExpiry l s
  | .unknownRequest => Sys2Proof.Machine.execUnknownRequest s
  | .openPanel => Sys2Proof.Machine.execOpenPanel s
  | .closePanel => Sys2Proof.Machine.execClosePanel s
  | .abandonPanel => Sys2Proof.Machine.execAbandonPanel s
  | .extendDepth => Sys2Proof.Machine.execExtendDepth s
  | .setDepth => Sys2Proof.Machine.execSetDepth s
  | .setWheel => Sys2Proof.Machine.execSetWheel s
  | .keepWheel => Sys2Proof.Machine.execKeepWheel s
  | .setFeed => Sys2Proof.Machine.execSetFeed s
  | .setTuning => Sys2Proof.Machine.execSetTuning s
  | .setAcquisition => Sys2Proof.Machine.execSetAcquisition s
  | .restartDrive => Sys2Proof.Machine.execRestartDrive s
  | .clearPlateFault => Sys2Proof.Machine.execClearPlateFault s
  | .takePump => Sys2Proof.Machine.execTakePump s
  | .reclaimPump => Sys2Proof.Machine.execReclaimPump s
  | .restart => Sys2Proof.Machine.execRestart s
  | .setPump => Sys2Proof.Machine.execSetPump s
  | .reportReturn => Sys2Proof.Machine.execReportReturn s
  | .releasePump => Sys2Proof.Machine.execReleasePump s
  | .readStatus => Sys2Proof.Machine.execReadStatus s
  | .readSnapshot => Sys2Proof.Machine.execReadSnapshot s
  | .readStations => Sys2Proof.Machine.execReadStations s
  | .cancelHold => Sys2Proof.Machine.execCancelHold s
  | .readDemands => Sys2Proof.Machine.execReadDemands s
  | .readTallies => Sys2Proof.Machine.execReadTallies s
  | .readFlags => Sys2Proof.Machine.execReadFlags s
  | .clearFlags => Sys2Proof.Machine.execClearFlags s
  | .setMask => Sys2Proof.Machine.execSetMask s
  | .readArchive => Sys2Proof.Machine.execReadArchive s
  | .archiveStatus => Sys2Proof.Machine.execArchiveStatus s
  | .eraseSlot => Sys2Proof.Machine.execEraseSlot s
  | .wipeArchive => Sys2Proof.Machine.execWipeArchive s
  | .clearTallies => Sys2Proof.Machine.execClearTallies s
  | .pageProgramCompletion verified => Sys2Proof.Machine.execPageProgramCompletion verified s
  | .eraseCompletion blank => Sys2Proof.Machine.execEraseCompletion blank s
  | .scanTimerExpiry => Sys2Proof.Machine.execScanTimerExpiry s
  | .conversionCompletion raw => Sys2Proof.Machine.execConversionCompletion raw s
  | .encoderTransition first second => Sys2Proof.Machine.execEncoderTransition first second s
  | .restitchStepCompletion => Sys2Proof.Machine.execRestitchStepCompletion s
  | .feedWindowExpiry => Sys2Proof.Machine.execFeedWindowExpiry s
  | .pickupEdge d elapsed => Sys2Proof.Machine.execPickupEdge d elapsed s
  | .pickupTimeout d => Sys2Proof.Machine.execPickupTimeout d s
  | .loopTimerExpiry d => Sys2Proof.Machine.execLoopTimerExpiry d s
  | .pwmPeriodStart => Sys2Proof.Machine.execPwmPeriodStart s
  | .stallConfirmExpiry w => Sys2Proof.Machine.execStallConfirmExpiry w s
  | .reverseTimerExpiry w => Sys2Proof.Machine.execReverseTimerExpiry w s
  | .loadedTimeExpiry => Sys2Proof.Machine.execLoadedTimeExpiry s
  | .travelTimerExpiry p => Sys2Proof.Machine.execTravelTimerExpiry p s
  | .reportStaleExpiry => Sys2Proof.Machine.execReportStaleExpiry s
  | .blockageConfirmExpiry => Sys2Proof.Machine.execBlockageConfirmExpiry s
  | .recoveryTimerExpiry => Sys2Proof.Machine.execRecoveryTimerExpiry s
  | .wheelDemandExpiry => Sys2Proof.Machine.execWheelDemandExpiry s

end Sys2Proof.Machine
end

