-- ==== Sys2Proof/Machine/Idle.lean ====
section
/-! DEFINITION. What the block does of itself when no command waits: it takes an event of its own that is ready (a
grant of the arbiter, the WARM after a RESTART reply, a timer that has run out), and otherwise 1 µs passes. Log
entry 2. -/

namespace Sys2Proof.Machine

/-- The request row of a kind; a kind of no request is UNKNOWN_REQUEST (10.3). -/
def requestOf (kind : Byte) : Instr :=
  match kind.toNat with
  | 0x10 => .openPanel
  | 0x11 => .closePanel
  | 0x12 => .abandonPanel
  | 0x13 => .extendDepth
  | 0x14 => .setDepth
  | 0x20 => .setWheel
  | 0x21 => .keepWheel
  | 0x22 => .setFeed
  | 0x23 => .setTuning
  | 0x24 => .setAcquisition
  | 0x25 => .restartDrive
  | 0x26 => .clearPlateFault
  | 0x27 => .takePump
  | 0x2F => .restart
  | 0x30 => .reclaimPump
  | 0x31 => .setPump
  | 0x32 => .reportReturn
  | 0x33 => .releasePump
  | 0x40 => .readStatus
  | 0x41 => .readSnapshot
  | 0x42 => .readStations
  | 0x43 => .cancelHold
  | 0x44 => .readDemands
  | 0x45 => .readTallies
  | 0x46 => .readFlags
  | 0x47 => .clearFlags
  | 0x48 => .setMask
  | 0x50 => .readArchive
  | 0x51 => .archiveStatus
  | 0x52 => .eraseSlot
  | 0x53 => .wipeArchive
  | 0x54 => .clearTallies
  | _ => .unknownRequest

/-- The command that is the granted request, if the arbiter has a grant to make. -/
def grantReady (s : State) : List Instr :=
  match grant s with
  | some (_, f) => [requestOf f.kind]
  | none => []

/-- The WARM, once the RESTART reply has left the Cab link (R15). -/
def warmReady (s : State) : List Instr := if s.warmDue then [.warm] else []

/-- The reading that completes the conversion in progress: free (log entry 3). -/
def idleReading (s : State) : Int :=
  Config.analogInput s.clock ((s.acq.activeList[s.acq.results.length]?).map Channel.code |>.getD 0)

/-- Every timer of the block with the command that takes its expiry. -/
def timers (s : State) : List (Timer × Instr) :=
  [(s.links.cab.bytePause, .bytePauseTimeout .cab), (s.links.plant.bytePause, .bytePauseTimeout .plant),
    (s.links.record.bytePause, .bytePauseTimeout .record),
    (s.links.cab.silence, .silenceExpiry .cab), (s.links.plant.silence, .silenceExpiry .plant),
    (s.links.record.silence, .silenceExpiry .record),
    (s.archive.engine.programmingDue, .pageProgramCompletion (Config.pageVerifies s.clock)),
    (s.archive.engine.erasing, .eraseCompletion (Config.slotBlank s.clock)),
    (s.acq.scanTimer, .scanTimerExpiry), (s.acq.conversion, .conversionCompletion (idleReading s)),
    (s.table.walker.map (·.due), .restitchStepCompletion), (s.depth.windowTimer, .feedWindowExpiry),
    (s.drives.a.motor.pickupTimer, .pickupTimeout .a), (s.drives.b.motor.pickupTimer, .pickupTimeout .b),
    (s.drives.p.motor.pickupTimer, .pickupTimeout .p),
    (s.drives.a.motor.loopTimer, .loopTimerExpiry .a), (s.drives.b.motor.loopTimer, .loopTimerExpiry .b),
    (s.drives.p.motor.loopTimer, .loopTimerExpiry .p), (s.drives.pwmTimer, .pwmPeriodStart),
    (s.drives.a.confirm, .stallConfirmExpiry .a), (s.drives.b.confirm, .stallConfirmExpiry .b),
    (s.drives.a.reverseTimer, .reverseTimerExpiry .a), (s.drives.b.reverseTimer, .reverseTimerExpiry .b),
    (s.drives.loadedTimer, .loadedTimeExpiry),
    (s.plates.af.travel, .travelTimerExpiry .af), (s.plates.ar.travel, .travelTimerExpiry .ar),
    (s.plates.bf.travel, .travelTimerExpiry .bf), (s.plates.br.travel, .travelTimerExpiry .br),
    (s.ret.staleTimer, .reportStaleExpiry), (s.ret.confirm, .blockageConfirmExpiry),
    (s.ret.recovery, .recoveryTimerExpiry), (s.demand.life, .wheelDemandExpiry)]

/-- The timers that have run out, with their times. -/
def dueTimers (s : State) : List (Nat × Instr) :=
  (timers s).filterMap fun (t, c) =>
    match t with
    | some due => if due ≤ s.clock then some (due, c) else none
    | none => none

/-- The earliest of some times. -/
def earliest : List (Nat × Instr) → Option Nat
  | [] => none
  | (t, _) :: rest =>
    match earliest rest with
    | some u => some (min t u)
    | none => some t

/-- The expiries that come first among those due. -/
def firstExpiries (s : State) : List Instr :=
  (dueTimers s).filterMap fun (t, c) => if some t = earliest (dueTimers s) then some c else none

/-- The events of the block's own that may be taken now; none while the reset line is asserted. -/
def ready (s : State) : List Instr :=
  if s.resetLine then [] else grantReady s ++ warmReady s ++ firstExpiries s

/-- The ready event that is taken: the pick is free (log entry 2). -/
def pickReady (s : State) : Option Instr := (ready s)[Config.readyPick s.draws % (ready s).length]?

/-- One step with no command waiting: a ready event, or 1 µs of time; no time passes while the reset line is
asserted. -/
def idle (s : State) : Host.Outcome State Fault Refusal :=
  if s.resetLine then .next s
  else match pickReady s with
    | some c => exec c s.drawn
    | none => .next (s.reach (s.clock + 1))

end Sys2Proof.Machine
end

