-- ==== Sys2Proof/Safety.lean ====
section
/-! DEFINITION. The terms claims use: how a command completes, how a request is answered, the request table
(10_master_links.md 10.3), the values after COLD, and the laws of the device that the spec names ("It is a law of the
device that …") with the invariants they rest on. Nothing in the machine depends on this file. -/

namespace Sys2Proof.Safety

open Sys2Proof.Machine

/-! ## Completion -/

/-- The command completes in a next state that has a property. -/
def Completes (c : Instr) (s : State) (post : State → Prop) : Prop := ∃ t, exec c s = .next t ∧ post t

/-- The flag set that holds exactly these flags. -/
def flagsOfList (fs : List Flag) : FlagSet := fs.foldl (fun acc f => acc ||| f.only) 0

/-- From `s` to `t` these flags were raised in all three flag sets, and no flag was cleared (R170). -/
def Raised (fs : List Flag) (s t : State) : Prop := ∀ l, (t.link l).flags = (s.link l).flags ||| flagsOfList fs

/-- Nothing of the links changed but that these flags were raised. -/
def LinksKept (fs : List Flag) (s t : State) : Prop :=
  Raised fs s t ∧ t.links.turn = s.links.turn ∧ t.links.levelZeroGrants = s.links.levelZeroGrants
    ∧ t.links.restarting = s.links.restarting ∧ ∀ l, t.link l = { s.link l with flags := (t.link l).flags }

/-- FEED_HOLD, when the feed-hold line's level differs between two states (R48). -/
def holdChange (s t : State) : List Flag := if s.depth.feedHold = t.depth.feedHold then [] else [.feedHold]

/-- An event completes: the state is `u` but for the links, where these flags were raised. -/
def Happens (c : Instr) (fs : List Flag) (s u : State) : Prop :=
  Completes c s fun t => t = { u with links := t.links } ∧ LinksKept fs s t

/-! ## Requests -/

/-- The engine is to take this request of this link: the reset line is released, and the arbiter grants the frame,
which is of this kind. -/
def Granted (kind : Byte) (l : Link) (f : Frame) (s : State) : Prop :=
  s.resetLine = false ∧ grant s = some (l, f) ∧ f.kind = kind

/-- The links after a request of `l` was taken and answered: the frame has left the receive queue, the reply is at
the tail of the reply queue with ALERT judged on the flags and mask as they are now, the overrun mark has gone into
it, and the arbiter has noted the grant (R165 to R168, R171). `mask` is the mask the link has afterwards; `restart`
says that the engine takes no further request (R15). -/
def Answered (l : Link) (f : Frame) (a : Answer) (mask : FlagSet) (restart : Bool) (s t : State) : Prop :=
  t.link l =
    { s.link l with
      rx := (s.link l).rx.tail
      replies := (s.link l).replies ++
        [{ seq := f.seq, kind := f.kind, outcome := a.outcome, reason := a.reason, payload := a.payload
           marks := { alert := (t.link l).alert, overrun := (s.link l).overrun, clamped := a.clamped,
                      truncated := a.truncated } }]
      overrun := false
      mask := mask
      flags := (t.link l).flags }
    ∧ (∀ k, k ≠ l → t.link k = { s.link k with flags := (t.link k).flags })
    ∧ t.links.turn = (match l with
        | .cab => .plant
        | .plant => .cab
        | .record => s.links.turn)
    ∧ t.links.levelZeroGrants = (match l with
        | .record => 0
        | _ => if s.links.record.waits then s.links.levelZeroGrants + 1 else s.links.levelZeroGrants)
    ∧ t.links.restarting = restart

/-- A request completes with this answer: the state is `u` but for the links, where these flags were raised and the
reply was built. -/
def Serves (c : Instr) (l : Link) (f : Frame) (a : Answer) (fs : List Flag) (s u : State) : Prop :=
  Completes c s fun t =>
    t = { u with links := t.links } ∧ Raised fs s t ∧ Answered l f a (s.link l).mask false s t

/-- A request is refused: nothing changes but that the request is taken and answered. -/
def Refuses (c : Instr) (l : Link) (f : Frame) (r : Reason) (payload : List Byte) (s : State) : Prop :=
  Serves c l f { outcome := .refused, reason := r, payload := payload } [] s s

/-- The request table (10.3): the kind and the allowed links of each request row. -/
def requestRow : Instr → Option (Byte × Access)
  | .openPanel => some (0x10, .cabOnly)
  | .closePanel => some (0x11, .cabOnly)
  | .abandonPanel => some (0x12, .cabOnly)
  | .extendDepth => some (0x13, .cabOnly)
  | .setDepth => some (0x14, .cabOnly)
  | .setWheel => some (0x20, .cabOnly)
  | .keepWheel => some (0x21, .cabOnly)
  | .setFeed => some (0x22, .cabOnly)
  | .setTuning => some (0x23, .cabOnly)
  | .setAcquisition => some (0x24, .cabOnly)
  | .restartDrive => some (0x25, .cabOnly)
  | .clearPlateFault => some (0x26, .cabOnly)
  | .takePump => some (0x27, .cabOnly)
  | .restart => some (0x2F, .cabOnly)
  | .reclaimPump => some (0x30, .plantOnly)
  | .setPump => some (0x31, .pumpOwner)
  | .reportReturn => some (0x32, .pumpOwner)
  | .releasePump => some (0x33, .pumpOwner)
  | .readStatus => some (0x40, .anyLink)
  | .readSnapshot => some (0x41, .anyLink)
  | .readStations => some (0x42, .anyLink)
  | .cancelHold => some (0x43, .anyLink)
  | .readDemands => some (0x44, .anyLink)
  | .readTallies => some (0x45, .anyLink)
  | .readFlags => some (0x46, .anyLink)
  | .clearFlags => some (0x47, .anyLink)
  | .setMask => some (0x48, .anyLink)
  | .readArchive => some (0x50, .recordOnly)
  | .archiveStatus => some (0x51, .recordOnly)
  | .eraseSlot => some (0x52, .recordOnly)
  | .wipeArchive => some (0x53, .recordOnly)
  | .clearTallies => some (0x54, .recordOnly)
  | _ => none

/-- Whether the request table lets a link send a request: none if it does, otherwise the reason of the refusal. The
PUMP group belongs to the link its owner names (R153, R167). -/
def barred (owner : Owner) (l : Link) : Access → Option Reason
  | .anyLink => none
  | .cabOnly => if l = .cab then none else some .notPermitted
  | .plantOnly => if l = .plant then none else some .notPermitted
  | .recordOnly => if l = .record then none else some .notPermitted
  | .pumpOwner =>
    match l, owner with
    | .record, _ => some .notPermitted
    | .plant, .plant => none
    | .cab, .cab => none
    | .plant, .cab => some .notOwner
    | .cab, .plant => some .notOwner

/-- The payload length of the requests that have one length (12.2). -/
def requestLength : Instr → Option Nat
  | .openPanel => some 31
  | .extendDepth | .setDepth => some 4
  | .reportReturn => some 6
  | .restartDrive | .clearPlateFault | .eraseSlot => some 1
  | .readStations | .readArchive | .clearFlags | .setMask => some 3
  | .closePanel | .abandonPanel | .keepWheel | .takePump | .restart | .reclaimPump | .releasePump | .readStatus
  | .readSnapshot | .cancelHold | .readDemands | .readTallies | .readFlags | .archiveStatus | .wipeArchive
  | .clearTallies => some 0
  | _ => none

/-! ## The values after COLD -/

/-- Every field of a motor after COLD (R126). -/
def coldMotor (m : Motor) : Prop :=
  m = { target := 0, working := 0, integ := 0, computed := 0, applied := 0, speed := 0, lastEdge := none
        noSpeed := true, pickupTimer := none, loopTimer := some 20000, rev := { value := 0, near := false } }

/-- Every field of a wheel drive after COLD (R126). -/
def coldWheel (d : WheelDrive) : Prop :=
  coldMotor d.motor ∧ d.state = .stopped ∧ d.dirOut = .forward ∧ d.dirStatus = .forward ∧ d.stalls = []
    ∧ d.confirm = none ∧ d.reverseTimer = none ∧ d.loaded = false ∧ d.loadedTime = { value := 0, near := false }
    ∧ d.bands = List.replicate 6 { value := 0, near := false }

/-- Every field of a plate after COLD (R136). -/
def coldPlate (p : Plate) : Prop :=
  p = { state := .hold, extend := false, retract := false, travel := none, lastStroke := none, effective := 0 }

/-- Every field of a link after COLD (R174). -/
def coldLink (x : LinkState) : Prop :=
  x = { receiver := none, bytePause := none, rx := [], replies := [], overrun := false, silent := false
        silence := some 3000000, flags := 0, mask := 0, lastSent := none }

/-- The geometry record after COLD (R2). -/
def coldGeometry : Geometry :=
  { panelId := 0, spacing := 200, start := 0, design := 0, length := 2800, width := 1200, groundDensity := 2150
    encoderStep := 1000, pprWheel := 8, pprPump := 8, displacement := 800, settleDistance := 1000
    repassHeight := 500, tolerance := 30 }

/-- The Acquisition Unit after COLD (R34); a reset at time `now` with zero value `z` (WARM keeps it). -/
def coldAcquisition (now : Nat) (z : Int) : Acquisition :=
  { activeList := [.rf, .zr, .ix, .iy, .tw, .pa, .pb, .ps, .pd, .saf, .sar, .sbf, .sbr]
    pendingList := [.rf, .zr, .ix, .iy, .tw, .pa, .pb, .ps, .pd, .saf, .sar, .sbf, .sbr]
    activeMode := .timed, pendingMode := .timed, period := 50, newPeriod := 50, state := .settling
    scanTimer := some (now + 50000), conversion := some (now + 20000), results := [], zero := z
    invalidCount := 0, fault := false, latest := none, seq := 0 }

/-- The values that the chapters' reset tables give after COLD, block by block: R1, R2, R34, R49, R50, R80, R100,
R126, R136, R152, R162, R174. The levels of the encoder lines and the archive are not in them. The reset tables do not
give the phase of the PWM period and of the loaded-time timer: both start at COLD, the model's choice (log entry 24). -/
def ColdValues (t : State) : Prop :=
  t.clock = 0 ∧ t.panel = .idle ∧ t.geometry = coldGeometry ∧ t.acq = coldAcquisition 0 0
  ∧ t.depth = { lineA := t.depth.lineA, lineB := t.depth.lineB, count := 0, ref := .unreferenced, floor := 0
                final := false, windowTimer := some 2000000, windowLength := 2000, windowStart := 0, lastFeed := 0
                overCount := 0, overfeed := false, feedHold := true
                reasons := { panel := true, reference := true, ret := true, driveA := true, driveB := true
                             wheel := true, final := false, acqOff := false, acqFault := false
                             overfeed := false } }
  ∧ t.table = { records := [], acc := { sumX := 0, sumY := 0, sumT := 0, count := 0, clampedSeen := false }
                lastIncl := none, reference := none, walker := none
                summary := { worstX := 0, worstXAt := none, worstY := 0, worstYAt := none, exceedsX := 0
                             exceedsY := 0 }
                firstX := false, firstY := false, holdCab := .free, holdPlant := .free, holdRecord := .free }
  ∧ t.align = { steer := .auto, diff := 0, demands := { af := 0, ar := 0, bf := 0, br := 0 }, status := .inactive
                cause := .none, stage := none }
  ∧ coldWheel t.drives.a ∧ coldWheel t.drives.b ∧ coldMotor t.drives.p.motor ∧ t.drives.p.state = .stopped
  ∧ t.drives.loadedTimer = some 100000 ∧ t.drives.pwmTimer = some 4000
  ∧ coldPlate t.plates.af ∧ coldPlate t.plates.ar ∧ coldPlate t.plates.bf ∧ coldPlate t.plates.br
  ∧ t.plates.override = { panel := true, lift := false, blocked := false }
  ∧ t.ret = { state := .stopped, backlog := 0, report := none, fresh := false, staleTimer := none, capacity := 0
              allowance := 0, limit := 0, confirm := none, recovery := none }
  ∧ t.demand.wheel = { baseSpeed := 0, direction := .forward, steer := .auto, manualDiff := 0
                       manual := { af := 0, ar := 0, bf := 0, br := 0 }, targetX := 0, targetY := 0 }
  ∧ t.demand.feed.values = [300, 20, 2, 2000, 60]
  ∧ t.demand.tuning.values = [300, 300, 20, 10, 60, 40, 5, 1000, 10, 2, 30, 10, 3, 8000, 32000, 20, 800, 80, 3000, 60,
      50, 120, 5, 250, 20, 4, 20, 2000]
  ∧ t.demand.pump.values = [0, 1250, 80, 30, 5000, 2000, 200000, 100000, 80, 1800, 20, 100, 1500, 3000]
  ∧ t.demand.owner = .plant ∧ t.demand.releasedPlant = false ∧ t.demand.releasedCab = false ∧ t.demand.life = none
  ∧ t.demand.expired = true
  ∧ coldLink t.links.cab ∧ coldLink t.links.plant ∧ coldLink t.links.record ∧ t.links.turn = .cab
  ∧ t.links.levelZeroGrants = 0 ∧ t.links.restarting = false

/-! ## Laws of the device -/

/-- The converter runs exactly while a scan or a settling scan is in flight (R33). -/
def ConverterLaw (s : State) : Prop :=
  s.acq.conversion.isSome ↔ s.acq.state = .settling ∨ s.acq.state = .scanning

/-- The feed governor's law (R47): each hold reason is in the set exactly while its condition holds, and the line is
asserted exactly while the set is not empty. -/
structure FeedHoldLaw (s : State) : Prop where
  panel : s.depth.reasons.panel ↔ s.panel ≠ .active
  reference : s.depth.reasons.reference ↔ s.depth.ref = .unreferenced
  ret : s.depth.reasons.ret ↔ s.ret.state = .stopped ∨ s.ret.state = .priming ∨ s.ret.state = .congested
    ∨ s.ret.state = .blocked
  driveA : s.depth.reasons.driveA ↔ ¬(s.drives.a.state = .running ∧ s.drives.a.dirStatus = .forward)
  driveB : s.depth.reasons.driveB ↔ ¬(s.drives.b.state = .running ∧ s.drives.b.dirStatus = .forward)
  wheel : s.depth.reasons.wheel ↔ s.demand.expired
  final : s.depth.reasons.final ↔ s.depth.final
  acqOff : s.depth.reasons.acqOff ↔ s.acq.state = .off
  acqFault : s.depth.reasons.acqFault ↔ s.acq.fault
  overfeed : s.depth.reasons.overfeed ↔ s.depth.overfeed
  line : s.depth.feedHold ↔ s.depth.reasons ≠
    { panel := false, reference := false, ret := false, driveA := false, driveB := false, wheel := false }

/-- The geometry record in force passes the check of R3. -/
def GeometryLaw (s : State) : Prop := firstBadField s.geometry = none

/-- The station table's law (R52): the records are in strictly ascending index order, every index is below the
station count, and the station count is at most 1024. -/
def TableLaw (s : State) : Prop :=
  s.table.records.Pairwise (fun r q => r.index < q.index)
    ∧ (∀ r ∈ s.table.records, r.index < s.geometry.stations) ∧ s.geometry.stations ≤ 1024

/-- The present record with the greatest index below `k` (R61), said without the machine's own lookup. -/
def IsPredecessor (rs : List Station) (k : Nat) (p : Station) : Prop :=
  p ∈ rs ∧ p.index < k ∧ ∀ q ∈ rs, q.index < k → q.index ≤ p.index

/-- The offsets of a record are those that R61 computes from its predecessor as it stands. -/
def OffsetsAgree (g : Geometry) (rs : List Station) (r : Station) : Prop :=
  (r.index = 0 → r.offsetX = 0 ∧ r.offsetY = 0)
  ∧ (∀ p, IsPredecessor rs r.index p →
      r.offsetX = p.offsetX + r.meanX * 25 * g.spacing * ((r.index : Int) - p.index)
        ∧ r.offsetY = p.offsetY + r.meanY * 25 * g.spacing * ((r.index : Int) - p.index))
  ∧ (r.index ≠ 0 → (∀ p, ¬IsPredecessor rs r.index p) →
      r.offsetX = r.meanX * 25 * g.spacing * r.index ∧ r.offsetY = r.meanY * 25 * g.spacing * r.index)

/-- The restitch walker's law (R63, R66): IDLE, no record is stale; WALKING at c, the record of c is present, the
records from c on are stale and those below are not; and every record that is not stale has the offsets of R61. -/
def WalkerLaw (s : State) : Prop :=
  (match s.table.walker with
    | none => ∀ r ∈ s.table.records, r.stale = false
    | some w => (∃ r ∈ s.table.records, r.index = w.cursor)
        ∧ ∀ r ∈ s.table.records, (r.stale = true ↔ w.cursor ≤ r.index))
  ∧ ∀ r ∈ s.table.records, r.stale = false → OffsetsAgree s.geometry s.table.records r

/-- A value of the inclination and twist channels, and a mean of such values (R53). -/
def InIncl (v : Int) : Prop := -2048 ≤ v ∧ v ≤ 2047

/-- A sum of `n` such values (R55). -/
def InSum (n : Nat) (v : Int) : Prop := -2048 * (n : Int) ≤ v ∧ v ≤ 2047 * (n : Int)

/-- The bound of an offset on either axis (R62): 2048 iu over the depth from station 0, and at most 10,240,000,000. -/
def OffsetBound (g : Geometry) (k : Nat) (offset : Int) : Prop :=
  |offset| ≤ 2048 * 25 * g.spacing * k ∧ |offset| ≤ 10240000000

/-- The offsets' law (R62): the magnitude of every station offset, stale or not, is at most 10,240,000,000 nm, every
mean is a value of its channel; with what the means are taken from: the accumulator's sums and count (R55), the last
valid inclination (R56) and the conversions of the scan in flight (R17, R21). -/
def OffsetLaw (s : State) : Prop :=
  (∀ r ∈ s.table.records, InIncl r.meanX ∧ InIncl r.meanY ∧ InIncl r.meanT
    ∧ OffsetBound s.geometry r.index r.offsetX ∧ OffsetBound s.geometry r.index r.offsetY)
  ∧ (s.table.acc.count ≤ 4095 ∧ InSum s.table.acc.count s.table.acc.sumX ∧ InSum s.table.acc.count s.table.acc.sumY
    ∧ InSum s.table.acc.count s.table.acc.sumT)
  ∧ (∀ i, s.table.lastIncl = some i → InIncl i.ix.value ∧ InIncl i.iy.value ∧ InIncl i.tw.value)
  ∧ ∀ x ∈ s.acq.results, x.channel = .ix ∨ x.channel = .iy ∨ x.channel = .tw → InIncl x.result.value

/-- The deviation summary is that of the records as they stand (R71). -/
def SummaryLaw (s : State) : Prop := s.table.summary = summaryOf s.table.records

/-- The worst magnitude on an axis among the records that count, and its index: the greatest magnitude, at the lowest
index that has it; 0 and absent when none counts (R71). -/
def WorstAgrees (counted : List Station) (axis : Station → Int) (worst : Int) (place : Option Nat) : Prop :=
  (counted = [] → worst = 0 ∧ place = none)
    ∧ (counted ≠ [] → ∃ r ∈ counted, worst = |axis r| ∧ place = some r.index
        ∧ ∀ q ∈ counted, |axis q| ≤ worst ∧ (|axis q| = worst → r.index ≤ q.index))

/-- The deviation summary as R71 says it, over the records that are SETTLED and not stale, without the machine's own
computation of it. -/
def SummaryAgrees (t : StationTable) : Prop :=
  let counted := t.records.filter fun r => decide (r.state = .settled) && !r.stale
  WorstAgrees counted (·.offsetX) t.summary.worstX t.summary.worstXAt
    ∧ WorstAgrees counted (·.offsetY) t.summary.worstY t.summary.worstYAt
    ∧ t.summary.exceedsX = (counted.filter (·.marks.exceedsX)).length
    ∧ t.summary.exceedsY = (counted.filter (·.marks.exceedsY)).length

/-- The prepared buffers' law (R76): a prepared buffer holds exactly the entries of its range as the table stands,
and every present record of that range is SETTLED and not stale. -/
def BufferLaw (s : State) : Prop :=
  ∀ l q b, s.table.hold l = .prepared q b →
    b = (List.range q.range).map (fun i => stationEntry s.table.records (q.first + i))
      ∧ ∀ r ∈ s.table.records, q.first ≤ r.index → r.index < q.first + q.range → r.state = .settled ∧ r.stale = false

/-- The waiting holds' law (R74, R76): a hold is WAITING only while a present record of its range is OPEN or stale. -/
def WaitingLaw (s : State) : Prop :=
  ∀ l q, s.table.hold l = .waiting q →
    ∃ r ∈ s.table.records, q.first ≤ r.index ∧ r.index < q.first + q.range ∧ (r.state = .opened ∨ r.stale = true)

/-- Every value of a group lies in its field's range. -/
def InRanges (range : Nat → Int × Int) (values : List Int) : Prop :=
  ∀ i v, values[i]? = some v → (range (i + 1)).1 ≤ v ∧ v ≤ (range (i + 1)).2

/-- Every demand group holds values of its ranges (R153, R97, R124, R130, R133, R150). The stored manual differential
can stand above a Dmax that was lowered later (R155), so its bound is the greatest Dmax. -/
def DemandLaw (s : State) : Prop :=
  InRanges (wheelRange 100) s.demand.wheel.values ∧ InRanges feedRange s.demand.feed.values
    ∧ InRanges tuningRange s.demand.tuning.values ∧ InRanges pumpRange s.demand.pump.values

/-- The differential's law (R90): its magnitude is at most the Dmax in force. -/
def DifferentialLaw (s : State) : Prop := |s.align.diff| ≤ s.demand.tuning.dMax

/-- The bounds of what a drive channel holds (the table of 06_drive_channels.md), `top` being its greatest target. -/
def MotorBounds (top : Int) (m : Motor) : Prop :=
  0 ≤ m.target ∧ m.target ≤ top ∧ 0 ≤ m.working ∧ m.working ≤ top ∧ -16000 ≤ m.integ ∧ m.integ ≤ 16000
    ∧ 0 ≤ m.computed ∧ m.computed ≤ 1000 ∧ 0 ≤ m.applied ∧ m.applied ≤ 1000 ∧ 0 ≤ m.speed ∧ m.speed ≤ 65535

/-- The drives' law (R104): the wheel targets lie within 0 … 400; with the other bounds of the drives' table. -/
def DriveLaw (s : State) : Prop :=
  MotorBounds 400 s.drives.a.motor ∧ MotorBounds 400 s.drives.b.motor ∧ MotorBounds 15000 s.drives.p.motor

/-- One plate's part of the plates' law: the state decides the outputs (R127). -/
def PlateOutputs (p : Plate) : Prop :=
  (p.extend = true ↔ p.state = .extending) ∧ (p.retract = true ↔ p.state = .retracting)
    ∧ 0 ≤ p.effective ∧ p.effective ≤ 100

/-- The plates' law (R127): every plate demand lies within 0 … 100, and the outputs are those of the state, so they
are never on together. -/
def PlateLaw (s : State) : Prop :=
  (∀ i, PlateOutputs (s.plate i)) ∧ ∀ i, 0 ≤ s.align.demands.of i ∧ s.align.demands.of i ≤ 100

/-- The backlog's law (R142). -/
def BacklogLaw (s : State) : Prop := 0 ≤ s.ret.backlog ∧ s.ret.backlog ≤ 1000000

/-- The seventeen counters (R122). -/
def counters (s : State) : List Counter := s.drives.counters

/-- The counters' law (R122), with their number: six bands on each wheel drive. -/
def CounterLaw (s : State) : Prop :=
  s.drives.a.bands.length = 6 ∧ s.drives.b.bands.length = 6 ∧ ∀ c ∈ counters s, c.value ≤ 16777215

/-- The released mark of a link that does not own the PUMP group is clear (R159). -/
def ReleaseLaw (s : State) : Prop :=
  (s.demand.owner = .plant → s.demand.releasedCab = false)
    ∧ (s.demand.owner = .cab → s.demand.releasedPlant = false)

/-- The queues' law (R165, R166): at most four frames and four replies on each link, and at most four level-0 grants
counted while a Record request waits. -/
def QueueLaw (s : State) : Prop :=
  (∀ l, (s.link l).rx.length ≤ 4 ∧ (s.link l).replies.length ≤ 4) ∧ s.links.levelZeroGrants ≤ 4

/-- The archive's law (R175, R177 to R179): eight slots; a slot is WRITING exactly while the close write in flight is
on it, and ERASING exactly while the erase in flight is on it; a close write is in flight exactly while the panel is
CLOSING; and the slots a wipe has still to erase come after the one being erased. -/
def ArchiveLaw (s : State) : Prop :=
  s.archive.slots.length = 8
  ∧ (∀ i, i < 8 → ((s.slot i).state = .writing ↔
      (s.archive.engine = .reserved i ∨ ∃ p im due, s.archive.engine = .programming i p im due)))
  ∧ (∀ i, i < 8 → ((s.slot i).state = .erasing ↔
      ((∃ due, s.archive.engine = .erase i due) ∨ ∃ rest due, s.archive.engine = .wipe i rest due)))
  ∧ (s.panel = .closing ↔
      ((∃ i, s.archive.engine = .reserved i) ∨ ∃ i p im due, s.archive.engine = .programming i p im due))
  ∧ (∀ i rest due, s.archive.engine = .wipe i rest due → (i :: rest).Pairwise (· < ·) ∧ ∀ j ∈ i :: rest, j < 8)
  ∧ (∀ i, s.archive.engine = .reserved i → s.table.walker.isSome)

/-! ## Payloads, byte by byte (most significant byte first, 00_scope.md 5.4) -/

/-- The value of two bytes. -/
def two (a b : Byte) : Int := a.toNat * 256 + b.toNat

/-- The value of three bytes. -/
def three (a b c : Byte) : Int := a.toNat * 65536 + b.toNat * 256 + c.toNat

/-- The value of four bytes. -/
def four (a b c d : Byte) : Int := a.toNat * 16777216 + b.toNat * 65536 + c.toNat * 256 + d.toNat

/-- The two's complement value of four bytes. -/
def signedFour (a b c d : Byte) : Int :=
  if a.toNat < 128 then four a b c d else four a b c d - 4294967296

/-- The payload of a group write: the entry count, and each entry's field number and four-byte value (12.2). -/
def groupPayload (es : List (Nat × Int)) : List Byte :=
  BitVec.ofNat 8 es.length :: (es.map fun e => BitVec.ofNat 8 e.1 :: field 4 e.2).flatten

/-- The entries of a group write that pass checks 3 of R154, with values that fit their four bytes. -/
def EntriesOk (fields : Nat) (es : List (Nat × Int)) : Prop :=
  es ≠ [] ∧ es.length ≤ fields ∧ (es.map (·.1)).Nodup
    ∧ ∀ e ∈ es, 1 ≤ e.1 ∧ e.1 ≤ fields ∧ -2147483648 ≤ e.2 ∧ e.2 ≤ 2147483647

/-- What a group holds after a write: a named field its clamped value, every other field what it held (R154). -/
def Stored (range : Nat → Int × Int) (es : List (Nat × Int)) (old new : List Int) : Prop :=
  new.length = old.length
    ∧ ∀ i, (∀ v, (i + 1, v) ∈ es → new[i]? = some (max (range (i + 1)).1 (min (range (i + 1)).2 v)))
      ∧ ((∀ v, (i + 1, v) ∉ es) → new[i]? = old[i]?)

/-- Whether a write changed a value by its clamp (R154's CLAMPED mark). -/
def anyClamped (range : Nat → Int × Int) (es : List (Nat × Int)) : Bool :=
  es.any fun e => e.2 < (range e.1).1 || (range e.1).2 < e.2

/-! ## Geometry and depth -/

/-- Whether a field of a geometry record is in range (the geometry table, R3, R4). -/
def FieldOk (g : Geometry) : Nat → Prop
  | 2 => 100 ≤ g.spacing ∧ g.spacing ≤ 500
  | 3 => 0 ≤ g.start ∧ g.start ≤ 20000
  | 4 => g.start ≤ g.design ∧ g.design - g.start ≤ 200000 ∧ (g.design - g.start) / g.spacing + 1 ≤ 1024
  | 5 => 1500 ≤ g.length ∧ g.length ≤ 4500
  | 6 => 500 ≤ g.width ∧ g.width ≤ 2000
  | 7 => 1500 ≤ g.groundDensity ∧ g.groundDensity ≤ 3000
  | 8 => 10 ≤ g.encoderStep ∧ g.encoderStep ≤ 10000
  | 9 => 1 ≤ g.pprWheel ∧ g.pprWheel ≤ 64
  | 10 => 1 ≤ g.pprPump ∧ g.pprPump ≤ 64
  | 11 => 100 ≤ g.displacement ∧ g.displacement ≤ 5000
  | 12 => 0 ≤ g.settleDistance ∧ g.settleDistance ≤ 20000
  | 13 => 50 ≤ g.repassHeight ∧ g.repassHeight ≤ 5000
  | 14 => 1 ≤ g.tolerance ∧ g.tolerance ≤ 200
  | _ => True

/-- The floor that placing gives at an internal depth (R39): every station before it lies at or above the depth, and
it is itself deeper, or is N. -/
def IsFloor (g : Geometry) (um : Int) (k : Nat) : Prop :=
  k ≤ g.stations ∧ (∀ j, j < k → (g.start + j * g.spacing) * 1000 ≤ um)
    ∧ (k < g.stations → um < (g.start + k * g.spacing) * 1000)

/-- The count whose depth is nearest a depth, the larger of two that are equally near (R38). -/
def IsNearest (step um count : Int) : Prop :=
  ∀ c, |count * step - um| ≤ |c * step - um| ∧ (|count * step - um| = |c * step - um| → c ≤ count)

/-- The table at the panel-open event and at ABANDON PANEL (R7, R12, R79): only the last valid inclination is kept,
and every WAITING or PREPARED hold is CANCELLED with its request. -/
def TableEmptied (t u : StationTable) : Prop :=
  u.records = [] ∧ u.acc = { sumX := 0, sumY := 0, sumT := 0, count := 0, clampedSeen := false }
  ∧ u.lastIncl = t.lastIncl ∧ u.reference = none ∧ u.walker = none
  ∧ u.summary = { worstX := 0, worstXAt := none, worstY := 0, worstYAt := none, exceedsX := 0, exceedsY := 0 }
  ∧ u.firstX = false ∧ u.firstY = false
  ∧ ∀ l, u.hold l = (match t.hold l with
      | .free => .free
      | .waiting q => .cancelled q.first q.count
      | .prepared q _ => .cancelled q.first q.count
      | .cancelled f c => .cancelled f c)

/-- The drives with the seventeen counters zeroed, their marks clear, and nothing else changed (R122). -/
def TalliesZeroed (d : Drives) : Drives :=
  { d with
    a := { d.a with
      motor := { d.a.motor with rev := { value := 0, near := false } }
      loadedTime := { value := 0, near := false }
      bands := List.replicate 6 { value := 0, near := false } }
    b := { d.b with
      motor := { d.b.motor with rev := { value := 0, near := false } }
      loadedTime := { value := 0, near := false }
      bands := List.replicate 6 { value := 0, near := false } }
    p := { d.p with motor := { d.p.motor with rev := { value := 0, near := false } } } }

/-- A depth counter whose feed governor holds this set of reasons, the line following it (R47). -/
def Governed (d : DepthCounter) (r : HoldReasons) : DepthCounter :=
  { d with
    reasons := r
    feedHold := decide (r ≠ { panel := false, reference := false, ret := false, driveA := false, driveB := false
                              wheel := false }) }

/-- The feed-hold line's law (R47): the line is asserted exactly while the set of reasons is not empty. -/
def LineLaw (s : State) : Prop := s.depth = Governed s.depth s.depth.reasons

/-- The verticality limit of station k, in nm (R69). -/
def toleranceLimit (g : Geometry) (k : Nat) : Int := (g.start + k * g.spacing) * g.tolerance * 100

/-- A record settled by a settlement that finds it OPEN and not stale (R68, R70). -/
def SettledRecord (g : Geometry) (r : Station) : Station :=
  { r with
    state := .settled
    marks := { r.marks with
      exceedsX := decide (toleranceLimit g r.index < |r.offsetX|)
      exceedsY := decide (toleranceLimit g r.index < |r.offsetY|) } }

/-- TOLERANCE, when a first-exceedance mark was set between two tables (R70). -/
def toleranceChange (s t : State) : List Flag :=
  if s.table.firstX = t.table.firstX ∧ s.table.firstY = t.table.firstY then [] else [.tolerance]

/-! ## Station records -/

/-- `q` is `a / b` rounded half away from zero. -/
def RoundsTo (a b q : Int) : Prop := 2 * |q * b - a| ≤ b ∧ (2 * |q * b - a| = b → |a| < |q * b|)

/-- `c` is the least present index above `k`. -/
def IsNextAbove (rs : List Station) (k c : Nat) : Prop :=
  (∃ r ∈ rs, r.index = c) ∧ k < c ∧ ∀ r ∈ rs, k < r.index → c ≤ r.index

/-- The walker that starts over at the least present index above `k`, its first step due 50 µs from `now`; IDLE when
there is none (R64 to R66). -/
def IsWalkerAbove (rs : List Station) (k now : Nat) : Option Walker → Prop
  | none => ∀ r ∈ rs, r.index ≤ k
  | some w => IsNextAbove rs k w.cursor ∧ w.due = now + 50

/-- GAP_BRIDGED as R61 gives it: clear for station 0 and over an adjacent predecessor, set otherwise. -/
def GapAgrees (rs : List Station) (r : Station) : Prop :=
  r.marks.gapBridged = true ↔ r.index ≠ 0 ∧ ∀ p, IsPredecessor rs r.index p → r.index ≠ p.index + 1

/-- The record that the crossing of station `k` builds in a state, but for its stale mark (R53, R54, R58, R59, R61). -/
def CrossedRecord (s : State) (k : Nat) (r : Station) : Prop :=
  r.index = k ∧ r.state = .opened ∧ r.samples = s.table.acc.count
  ∧ (s.table.acc.count ≠ 0 →
      RoundsTo s.table.acc.sumX s.table.acc.count r.meanX ∧ RoundsTo s.table.acc.sumY s.table.acc.count r.meanY
      ∧ RoundsTo s.table.acc.sumT s.table.acc.count r.meanT
      ∧ r.marks.noSample = false ∧ r.marks.inclClamped = s.table.acc.clampedSeen)
  ∧ (s.table.acc.count = 0 → r.marks.noSample = true ∧ match s.table.lastIncl with
      | some i => r.meanX = i.ix.value ∧ r.meanY = i.iy.value ∧ r.meanT = i.tw.value
          ∧ r.marks.inclClamped = (i.ix.saturated || i.iy.saturated || i.tw.saturated)
      | none => r.meanX = 0 ∧ r.meanY = 0 ∧ r.meanT = 0 ∧ r.marks.inclClamped = false)
  ∧ (∀ q ∈ s.table.records, q.index = k → r.passCount = min (q.passCount + 1) 15 ∧ r.marks.revised = true)
  ∧ ((∀ q ∈ s.table.records, q.index ≠ k) → r.passCount = 1 ∧ r.marks.revised = false)
  ∧ (r.marks.depthSuspect = true ↔ s.depth.ref = .suspect)
  ∧ r.marks.exceedsX = false ∧ r.marks.exceedsY = false
  ∧ r.speedA = s.drives.a.motor.speed ∧ r.speedB = s.drives.b.motor.speed ∧ r.differential = s.align.diff
  ∧ r.density = (if s.ret.fresh then s.ret.report.map (·.returnDensity) else none)
  ∧ OffsetsAgree s.geometry s.table.records r ∧ GapAgrees s.table.records r

/-- Whether an encoder transition to these levels goes one step down, or up, and stays within the bound (R35). -/
def StepsBy (s : State) (first second : Bool) (step : Int) : Prop :=
  s.resetLine = false ∧ |(s.depth.count + step) * s.geometry.encoderStep| ≤ 1000000000
    ∧ ((step = 1 ∧ phaseOf first second = (phaseOf s.depth.lineA s.depth.lineB + 1) % 4)
      ∨ (step = -1 ∧ phaseOf s.depth.lineA s.depth.lineB = (phaseOf first second + 1) % 4))

/-- Whether a downward transition from the present depth passes a depth given in mm (R40, R42). -/
def Passes (s : State) (mm : Int) : Prop :=
  s.depth.count * s.geometry.encoderStep < mm * 1000
    ∧ mm * 1000 ≤ (s.depth.count + 1) * s.geometry.encoderStep

/-- The hold of a link reviewed against the table: a WAITING hold is prepared once every present record of its range
is SETTLED and not stale (R76). -/
def Reviewed (rs : List Station) (h h' : Hold) : Prop :=
  (∀ q, h = .waiting q →
    ((∀ r ∈ rs, q.first ≤ r.index → r.index < q.first + q.range → r.state = .settled ∧ r.stale = false) →
      h' = .prepared q ((List.range q.range).map fun i => stationEntry rs (q.first + i)))
    ∧ (¬(∀ r ∈ rs, q.first ≤ r.index → r.index < q.first + q.range → r.state = .settled ∧ r.stale = false) →
      h' = h))
  ∧ ((∀ q, h ≠ .waiting q) → h' = h)

/-- What a change of the table does to a hold (R76): a PREPARED hold whose request the change affects is WAITING again,
and every other hold stays. -/
def Invalidated (affected : Query → Prop) (h h' : Hold) : Prop :=
  (∀ q b, h = .prepared q b → (affected q → h' = .waiting q) ∧ (¬affected q → h' = h))
  ∧ ((∀ q b, h ≠ .prepared q b) → h' = h)

/-- Whether a station lies in the range of a held query. -/
def InRange (q : Query) (k : Nat) : Prop := q.first ≤ k ∧ k < q.first + q.range

/-- What the passage of the settlement line of station k does, from `u` to `t` (R42, R68, R70, R71, R76): an absent or
SETTLED record is left; an OPEN one that is not stale becomes SETTLED with its exceedance marks judged, one that is
stale becomes SETTLED only; TOLERANCE is raised at the first exceedance on an axis; and the holds are reviewed. -/
def SettlesAt (k : Nat) (u t : State) : Prop :=
  ((∀ r ∈ u.table.records, r.index = k → r.state = .settled) → t = u)
  ∧ ∀ r ∈ u.table.records, r.index = k → r.state = .opened →
      let settled := if r.stale then { r with state := .settled } else SettledRecord u.geometry r
      t = { u with
        table := { u.table with
          records := u.table.records.map fun q => if q.index = k then settled else q
          summary := t.table.summary
          firstX := u.table.firstX || (!r.stale && settled.marks.exceedsX)
          firstY := u.table.firstY || (!r.stale && settled.marks.exceedsY)
          holdCab := t.table.holdCab, holdPlant := t.table.holdPlant, holdRecord := t.table.holdRecord }
        links := t.links }
      ∧ LinksKept (toleranceChange u t) u t ∧ SummaryLaw t
      ∧ ∀ l, Reviewed t.table.records (u.table.hold l) (t.table.hold l)

/-! ## Feed governor and return balance -/

/-- The set of reasons with a wheel drive's reason as given. -/
def driveReason (w : WheelId) (b : Bool) (r : HoldReasons) : HoldReasons :=
  match w with
  | .a => { r with driveA := b }
  | .b => { r with driveB := b }

/-- The return states that hold the feed (R47, R143). -/
def holdsReturn (st : ReturnState) : Bool :=
  decide (st = .stopped ∨ st = .priming ∨ st = .congested ∨ st = .blocked)

/-- The depth counter after the return state went from `st` to `st'`: at a change the feed governor is told (R149). -/
def afterReturn (d : DepthCounter) (st st' : ReturnState) : DepthCounter :=
  if st' = st then d else Governed d { d.reasons with ret := holdsReturn st' }

/-- RETURN_STATE, when the return state differs between two states (R149). -/
def returnChange (s t : State) : List Flag := if t.ret.state = s.ret.state then [] else [.returnState]

/-- The published feed limit that the return state gives (R141). -/
def LimitAgrees (d : DemandTable) (b : ReturnBalance) : Prop :=
  (b.state = .normal → b.limit = min b.allowance d.feed.ceiling)
  ∧ (b.state = .blind → b.limit = min d.pump.blindAllowance d.feed.ceiling)
  ∧ (holdsReturn b.state = true → b.limit = 0)

/-- Capacity, allowance and limit are those of the last report (R139 to R141). -/
def BalanceAgrees (g : Geometry) (d : DemandTable) (b : ReturnBalance) : Prop :=
  (b.report = none → b.capacity = 0)
  ∧ (∀ r, b.report = some r →
      (d.pump.densityLimit ≤ r.supplyDensity ∨ g.groundDensity ≤ r.supplyDensity → b.capacity = 0)
      ∧ (r.supplyDensity < d.pump.densityLimit → r.supplyDensity < g.groundDensity →
          b.capacity = (r.flow * (d.pump.densityLimit - r.supplyDensity)).tdiv (g.groundDensity - r.supplyDensity)))
  ∧ b.allowance = max 0 (min 9999 ((b.capacity * 100 * d.pump.margin).tdiv (g.length * g.width / 100)))
  ∧ LimitAgrees d b

/-- The volume that the return removes in a window of `ms`, in mL (R142): 0 without a fresh report, or with a supply no
lighter than the ground. -/
def removedIn (g : Geometry) (b : ReturnBalance) (ms : Int) : Int :=
  match b.report with
  | none => 0
  | some r =>
    if b.fresh = true ∧ r.supplyDensity < g.groundDensity
    then (r.flow * ms * max (r.returnDensity - r.supplyDensity) 0).tdiv (60 * (g.groundDensity - r.supplyDensity))
    else 0

/-- The entry conditions of CONGESTED (R146). -/
def Congests (d : PumpGroup) (b : ReturnBalance) : Prop :=
  d.bHi ≤ b.backlog ∨ ∃ r, b.report = some r ∧ d.densityLimit < r.returnDensity

/-- The exit conditions of CONGESTED (R146). -/
def Uncongests (d : PumpGroup) (b : ReturnBalance) : Prop :=
  b.backlog ≤ d.bLo ∧ (∀ r, b.report = some r → r.returnDensity ≤ d.densityLimit - 10) ∧ ¬Congests d b

/-- The return state that a feed window completion decides (R144 to R146). -/
def AtWindow (d : PumpGroup) (b : ReturnBalance) (st : ReturnState) : Prop :=
  (b.state = .normal ∨ b.state = .blind → (Congests d b → st = .congested) ∧ (¬Congests d b → st = b.state))
  ∧ (b.state = .congested → (Uncongests d b → st = if b.fresh then .normal else .blind)
      ∧ (¬Uncongests d b → st = .congested))
  ∧ (b.state = .stopped ∨ b.state = .priming ∨ b.state = .blocked → st = b.state)

/-- The return state that a report decides, the report being the last one and fresh (R144 to R146, R148). -/
def AtReport (d : PumpGroup) (b : ReturnBalance) (flow : Int) (st : ReturnState) : Prop :=
  (b.state = .priming → (flow < d.qMin → st = .priming)
      ∧ (d.qMin ≤ flow → (Congests d b → st = .congested) ∧ (¬Congests d b → st = .normal)))
  ∧ (b.state = .normal ∨ b.state = .blind → (Congests d b → st = .congested) ∧ (¬Congests d b → st = .normal))
  ∧ (b.state = .congested → (Uncongests d b → st = .normal) ∧ (¬Uncongests d b → st = .congested))
  ∧ (b.state = .stopped ∨ b.state = .blocked → st = b.state)

/-! ## Drives -/

/-- One ramp or rate step from `x` toward `goal` (R90, R107). -/
def StepTo (x goal step y : Int) : Prop :=
  (|goal - x| ≤ step → y = goal)
  ∧ (step < |goal - x| → (x < goal → y = x + step) ∧ (goal ≤ x → y = x - step))

/-- The base speed of a wheel drive with the reductions in force (R103). -/
def baseSpeedFor (s : State) (w : WheelId) : Int :=
  let other := match w with
    | .a => s.drives.b.state
    | .b => s.drives.a.state
  let demanded := if s.demand.expired = true ∨ s.panel ≠ .active ∨ s.ret.state = .blocked then 0
    else s.demand.wheel.baseSpeed
  let congested := if s.ret.state = .congested then min demanded s.demand.tuning.congestionSpeed else demanded
  let beside := if other = .stallReverse ∨ other = .stallResume then min congested s.demand.tuning.companionSpeed
    else congested
  if other = .lockedOut then 0 else beside

/-- The target that drive A or B has from a base speed and a differential: both shifted so that neither leaves
0 … 400 and their difference is the whole differential (R104). -/
def TargetFrom (w : WheelId) (e diff target : Int) : Prop :=
  (e = 0 → target = 0)
  ∧ (e ≠ 0 → target = max |diff| (min (400 - |diff|) e) + match w with
      | .a => diff
      | .b => -diff)

/-- A direction as a status. -/
def plainStatus : Dir → DirStatus
  | .forward => .forward
  | .reverse => .reverse

/-- The wanted direction of a wheel drive in a state (R106, R114, R116). -/
def wantedIn (s : State) (st : WheelState) (out : Dir) : Dir :=
  match st with
  | .stopped => s.demand.wheel.direction
  | .running => s.demand.wheel.direction
  | .stallReverse => .reverse
  | .stallResume => .forward
  | .lockedOut => out

/-- The status of a direction output whose wanted direction is given (R108). -/
def statusFor (wanted out : Dir) : DirStatus := if wanted = out then plainStatus out else .changing

/-- The duty stage of a pass with the valve not held closed (R109): duty from feedforward, proportional and integral
terms, and the integrator frozen where the duty is at a limit that the error pushes against. -/
def DutyAgrees (t : TuningGroup) (feedforward : Int) (m m' : Motor) : Prop :=
  let err := m'.working - m.speed
  m'.computed = max 0 (min 1000 (feedforward + (err * t.kp).tdiv 10 + m.integ.tdiv 16))
  ∧ ((m'.computed = 1000 ∧ 0 < err) ∨ (m'.computed = 0 ∧ err < 0) → m'.integ = m.integ)
  ∧ (¬((m'.computed = 1000 ∧ 0 < err) ∨ (m'.computed = 0 ∧ err < 0)) →
      m'.integ = max (-16000) (min 16000 (m.integ + err * t.ki)))

/-- A counter with 1 added: it stops at its greatest value, and its near-full mark is set where it reaches
12,582,912 (R122). -/
def tickOf (c : Counter) : Counter :=
  { value := min (c.value + 1) 16777215, near := c.near || c.value + 1 == 12582912 }

/-- Whether adding 1 to a counter raises TALLY_NEAR_FULL (R122). -/
def notices (c : Counter) : Bool := c.value + 1 == 12582912 && !c.near

/-- The flag of these notices. -/
def noticeFlags (b : Bool) : List Flag := if b then [.tallyNearFull] else []

/-! ## Plates -/

/-- The code of a plate (12.3). -/
def plateCode : PlateId → Nat
  | .af => 0
  | .ar => 1
  | .bf => 2
  | .br => 3

/-- The channel of a plate's stroke, by code (7.1). -/
def strokeCode : PlateId → Nat
  | .af => 9
  | .ar => 10
  | .bf => 11
  | .br => 12

/-- A plate in FAULT: outputs off, travel timer stopped, the last judged stroke and demand kept (R132, R133). -/
def faulted (p : Plate) : Plate := { p with state := .fault, extend := false, retract := false, travel := none }

/-- What one judgement of a plate decides from its stroke and effective demand (R130). -/
def Judged (band q demand : Int) (due : Nat) (p p' : Plate) : Prop :=
  p'.lastStroke = some q ∧ p'.effective = demand
  ∧ (p.state = .hold →
      (q < demand - band → p'.state = .extending ∧ p'.travel = some due)
      ∧ (demand + band < q → p'.state = .retracting ∧ p'.travel = some due)
      ∧ (demand - band ≤ q → q ≤ demand + band → p'.state = .hold ∧ p'.travel = none))
  ∧ (p.state = .extending → (demand ≤ q → p'.state = .hold ∧ p'.travel = none)
      ∧ (q < demand → p'.state = .extending ∧ p'.travel = p.travel))
  ∧ (p.state = .retracting → (q ≤ demand → p'.state = .hold ∧ p'.travel = none)
      ∧ (demand < q → p'.state = .retracting ∧ p'.travel = p.travel))

/-! ## Scans and alignment -/

/-- How the Acquisition Unit goes on at the completion of a scan (R23, R26): a pending OFF is adopted; in FREE the
pending list and mode are adopted, and the next scan starts at once or, with TIMED adopted, the timer is loaded; in
TIMED it waits. -/
def nextScan (now : Nat) (a : Acquisition) : Acquisition :=
  let adopted := { a with activeList := a.pendingList, activeMode := a.pendingMode, results := [] }
  if a.pendingMode = .off then { adopted with state := .off, conversion := none, scanTimer := none }
  else if a.activeMode = .free then
    if a.pendingMode = .timed then
      { adopted with state := .waiting, conversion := none, scanTimer := some (now + a.period.toNat * 1000) }
    else { adopted with state := .scanning, conversion := some (now + 2000) }
  else { a with state := .waiting, conversion := none, results := [] }

/-- The stall watch of a wheel drive (R113): RUNNING or STALL_RESUME with the direction FORWARD. -/
def Watched (d : WheelDrive) : Prop := (d.state = .running ∨ d.state = .stallResume) ∧ d.dirStatus = .forward

/-- The pressure bands (R121), from 0: whole percents 0 to 24, 25 to 49, 50 to 69, 70 to 84, 85 to 94, and above. -/
def InBand (percent : Int) (k : Nat) : Prop :=
  (k = 0 ∧ percent ≤ 24) ∨ (k = 1 ∧ 25 ≤ percent ∧ percent ≤ 49) ∨ (k = 2 ∧ 50 ≤ percent ∧ percent ≤ 69)
    ∨ (k = 3 ∧ 70 ≤ percent ∧ percent ≤ 84) ∨ (k = 4 ∧ 85 ≤ percent ∧ percent ≤ 94) ∨ (k = 5 ∧ 95 ≤ percent)

/-- A watch timer after a judged scan: it starts with the condition, runs on while it holds, and stops without it. -/
def Watch (condition : Prop) (old new : Timer) (start : Nat) : Prop :=
  (condition → old = none → new = some start) ∧ (condition → old ≠ none → new = old) ∧ (¬condition → new = none)

/-- The scan value of a channel code in a scan record (R31). -/
def entryOf (r : ScanRecord) (code : Nat) : Option ScanValue := (r.entries[code]?).join

/-- The channel of a wheel drive's pressure, by code (R113). -/
def pressureCode : WheelId → Nat
  | .a => 5
  | .b => 6

/-- Whether a valid scan brings a pressure-band tally to its near-full notice (R121, R122). -/
def TallyNoticed (s : State) (r : ScanRecord) : Prop :=
  s.panel = .active ∧ ∃ (w : WheelId) (v : ScanValue) (k : Nat) (c : Counter),
    entryOf r (pressureCode w) = some v ∧ v.saturated = false ∧ InBand ((v.value * 100).tdiv 4095) k
      ∧ (s.wheel w).bands[k]? = some c ∧ notices c = true

/-- Whether a valid scan puts a plate into FAULT (R132): its stroke is present and SATURATED, and it is not in FAULT. -/
def Jams (s : State) (r : ScanRecord) (i : PlateId) : Prop :=
  (s.plate i).state ≠ .fault ∧ ∃ v, entryOf r (strokeCode i) = some v ∧ v.saturated = true

/-- The reference depth and offsets of an evaluation (R81 branch 4, R85): the start of integration while no station
has been crossed, otherwise the reference station's record, while it is present and not stale. -/
def HasReference (s : State) (depth offX offY : Int) : Prop :=
  (s.table.reference = none ∧ depth = s.geometry.start ∧ offX = 0 ∧ offY = 0)
  ∨ ∃ k, s.table.reference = some k ∧ depth = s.geometry.start + k * s.geometry.spacing
      ∧ ∃ r ∈ s.table.records, r.index = k ∧ r.stale = false ∧ r.offsetX = offX ∧ r.offsetY = offY

/-- A demand with dead band and gain: 0 within the band, otherwise the sign of the error with the gained excess up to
a limit (R91, R92). -/
def GainedDemand (x band gain divisor limit y : Int) : Prop :=
  (|x| ≤ band → y = 0)
  ∧ (band < |x| → 0 ≤ x → y = min limit (((|x| - band) * gain).tdiv divisor))
  ∧ (band < |x| → x < 0 → y = -min limit (((|x| - band) * gain).tdiv divisor))

/-- The raw differential demand, clamped to the Dmax in force: opposite in sign to the error (R89, R90). -/
def RawAgrees (t : TuningGroup) (ex raw : Int) : Prop :=
  (|ex| ≤ t.dbX → raw = 0)
  ∧ (t.dbX < |ex| → 0 ≤ ex → raw = max (-t.dMax) (-((|ex| - t.dbX) * t.gX).tdiv 1000))
  ∧ (t.dbX < |ex| → ex < 0 → raw = min t.dMax (((|ex| - t.dbX) * t.gX).tdiv 1000))

/-- A value clamped to 0 … 100 %. -/
def percent (x : Int) : Int := max 0 (min 100 x)

/-! ## Readouts: fields in order, each with its size and its value (12.4, 12.5) -/

/-- The bytes of fields in order. -/
def laid (fields : List (Nat × Int)) : List Byte := (fields.map fun x => field x.1 x.2).flatten

/-- 1 for a condition that holds. -/
def mark (b : Bool) : Int := if b then 1 else 0

/-- A bit set: member `i` present gives the value 2 to the `i`. -/
def weights (bs : List Bool) : Int := (bs.zipIdx.map fun x => if x.1 then (2 : Int) ^ x.2 else 0).sum

/-- A station index, 0xFFFF when absent (R184). -/
def indexValue : Option Nat → Int
  | some k => k
  | none => 65535

/-- The fields of the deviation summary. -/
def summaryLayout (t : StationTable) : List (Nat × Int) :=
  [(2, reportedOffset t.summary.worstX), (2, indexValue t.summary.worstXAt), (2, reportedOffset t.summary.worstY),
    (2, indexValue t.summary.worstYAt), (2, t.summary.exceedsX), (2, t.summary.exceedsY),
    (1, weights [t.firstX, t.firstY])]

/-- The fields of a wheel drive in READ STATUS; `ms` is the millisecond clock. -/
def wheelLayout (ms : Nat) (d : WheelDrive) : List (Nat × Int) :=
  let age (k : Nat) : Int := match d.stalls[k]? with
    | some e => ((ms - e : Nat) : Int)
    | none => 0
  [(1, d.state.code), (1, d.dirOut.code), (1, d.dirStatus.code), (2, d.motor.target), (2, d.motor.working),
    (2, d.motor.applied), (2, d.motor.speed), (1, d.stalls.length), (4, age 0), (4, age 1), (4, age 2),
    (1, mark d.confirm.isSome), (1, mark d.loaded)]

/-- The fields of a plate in READ STATUS. -/
def plateLayout (left : Timer → Int) (p : Plate) : List (Nat × Int) :=
  [(1, p.state.code), (1, weights [p.extend, p.retract]), (1, p.lastStroke.getD 255), (1, p.effective),
    (2, left p.travel)]

/-- The fields of a link in READ STATUS. The request being answered, of the link `taken`, has left its receive queue
(R165). -/
def linkLayout (s : State) (taken l : Link) : List (Nat × Int) :=
  [(1, mark (s.link l).silent), (1, (s.link l).rx.length - if l = taken then 1 else 0), (1, (s.link l).replies.length),
    (1, (s.table.hold l).code)]

/-- The fields of the stage record. -/
def stageLayout : Option StageRecord → List (Nat × Int)
  | none => [(1, 0)]
  | some g => [(1, 1), (2, g.seq), (2, g.delta), (5, g.px), (4, g.ex), (1, g.raw), (5, g.py), (4, g.ey), (1, g.yDem),
      (2, g.tw), (1, g.tDem)]

/-- The fields of READ STATUS (R172), asked by the link `taken`; `left` is the time left on a timer, in ms. That
the current byte is 0 with no reference station is the model's choice: log entry 36. -/
def statusLayout (left : Timer → Int) (taken : Link) (s : State) : List (Nat × Int) :=
  let r := s.depth.reasons
  let report := s.ret.report.getD { flow := 0, returnDensity := 0, supplyDensity := 0 }
  let current := s.table.records.any fun q => decide (s.table.reference = some q.index) && !q.stale
  let o := s.plates.override
  [(1, s.panel.code), (4, s.geometry.panelId), (2, s.geometry.stations), (4, s.geometry.design),
    (4, s.geometry.length * s.geometry.width / 100)]
  ++ [(4, (s.depth.count * s.geometry.encoderStep) / 1000), (1, s.depth.ref.code), (2, s.depth.floor),
    (1, mark s.depth.final), (2, s.depth.lastFeed), (1, s.depth.overCount), (1, mark s.depth.overfeed),
    (2, weights [r.panel, r.reference, r.ret, r.driveA, r.driveB, r.wheel, r.final, r.acqOff || r.acqFault,
      r.overfeed]),
    (1, mark s.depth.feedHold)]
  ++ [(1, s.acq.state.code), (1, mark s.acq.fault), (1, s.acq.invalidCount)]
  ++ [(2, (s.table.records.length : Int)), (1, mark s.table.walker.isSome), (2, indexValue (s.table.walker.map (·.cursor))),
    (2, (s.table.records.filter (·.stale)).length), (2, indexValue s.table.reference), (1, mark current)]
  ++ summaryLayout s.table
  ++ [(1, s.align.steer.code), (1, s.align.status.code), (1, s.align.cause.code), (2, s.align.diff),
    (1, s.align.demands.af), (1, s.align.demands.ar), (1, s.align.demands.bf), (1, s.align.demands.br)]
  ++ stageLayout s.align.stage
  ++ wheelLayout (s.clock / 1000) s.drives.a ++ wheelLayout (s.clock / 1000) s.drives.b
  ++ [(1, s.drives.p.state.code), (1, 0), (1, 0), (2, s.drives.p.motor.target), (2, s.drives.p.motor.working),
    (2, s.drives.p.motor.applied), (2, s.drives.p.motor.speed)]
  ++ plateLayout left s.plates.af ++ plateLayout left s.plates.ar ++ plateLayout left s.plates.bf
  ++ plateLayout left s.plates.br
  ++ [(1, weights [o.panel, o.lift, o.blocked, false, false, false, false, o.panel || o.lift || o.blocked])]
  ++ [(1, s.ret.state.code), (4, s.ret.backlog), (1, weights [s.ret.report.isSome, s.ret.fresh]), (2, report.flow),
    (2, report.returnDensity), (2, report.supplyDensity), (2, left s.ret.staleTimer), (4, s.ret.capacity),
    (2, s.ret.allowance), (2, s.ret.limit), (2, left s.ret.confirm), (2, left s.ret.recovery)]
  ++ linkLayout s taken .cab ++ linkLayout s taken .plant ++ linkLayout s taken .record

/-- What a time left in ms is of the µs left on a timer: 0 when stopped, otherwise within 1 ms of them. -/
def TimeLeft (now : Nat) (left : Timer → Int) : Prop :=
  left none = 0 ∧ ∀ due, left (some due) * 1000 < ((due - now : Nat) : Int) + 1000
    ∧ ((due - now : Nat) : Int) < left (some due) * 1000 + 1000

/-- The fields of a scan list: its length and sixteen codes, unused codes 0. -/
def listLayout (cs : List Channel) : List (Nat × Int) :=
  (1, (cs.length : Int)) :: (List.range 16).map fun i => (1, ((cs[i]?).map fun c => (c.code : Int)).getD 0)

/-- The programming section of READ SNAPSHOT. -/
def programmingLayout (a : Acquisition) : List (Nat × Int) :=
  [(1, a.state.code), (1, mark a.fault), (1, a.invalidCount), (2, a.zero), (1, a.activeMode.code), (2, a.period)]
  ++ listLayout a.activeList ++ [(1, a.pendingMode.code), (2, a.newPeriod)] ++ listLayout a.pendingList

/-- The record section of READ SNAPSHOT. -/
def recordLayout (r : ScanRecord) : List (Nat × Int) :=
  [(2, (r.seq : Int)), (1, mark r.valid)] ++ (r.entries.map fun e => match e with
    | none => [(1, 0), (2, 0)]
    | some v => [(1, weights [true, v.saturated]), (2, v.value)]).flatten

/-- The seventeen counters with their near-full marks. -/
def countersLayout (s : State) : List (Nat × Int) :=
  let d := s.drives
  let cs := [d.a.motor.rev, d.b.motor.rev, d.p.motor.rev, d.a.loadedTime, d.b.loadedTime] ++ d.a.bands ++ d.b.bands
  (cs.map fun c => (3, (c.value : Int))) ++ [(3, weights (cs.map (·.near)))]

/-- The fields of READ DEMANDS. -/
def demandsLayout (left : Timer → Int) (d : DemandTable) : List (Nat × Int) :=
  ((d.wheel.values ++ d.feed.values ++ d.tuning.values ++ d.pump.values).map fun v => (4, v))
  ++ [(1, d.owner.code), (1, weights [d.releasedPlant, d.releasedCab]), (1, mark d.expired), (2, left d.life)]

/-- The fields of ARCHIVE STATUS. -/
def archiveLayout (a : Archive) : List (Nat × Int) :=
  (a.slots.map fun x => [(1, x.state.code), (4, x.panelId.getD 0), (1, ((x.pageCount.getD 0 : Nat) : Int)),
    (9, (x.readMarks.toNat : Int))]).flatten
  ++ match a.engine with
    | .idle => [(1, (0 : Int)), (1, 255), (1, 0), (1, 0), (1, 0)]
    | .reserved i => [(1, (1 : Int)), (1, i), (1, 0), (1, 0), (1, 0)]
    | .programming i p _ _ => [(1, (1 : Int)), (1, i), (1, 1), (1, p), (1, 0)]
    | .erase i _ => [(1, (2 : Int)), (1, i), (1, 0), (1, 0), (1, 0)]
    | .wipe i rest _ => [(1, 3), (1, (i : Int)), (1, 0), (1, 0), (1, rest.length)]

/-- The 24 bytes of a present station's entry, its offsets in 0.1 mm as given. -/
def entryLayout (r : Station) (x y : Int) : List (Nat × Int) :=
  let m := r.marks
  [(2, (r.index : Int)), (1, weights [true, decide (r.state = .settled), r.stale, r.density.isSome]), (2, r.meanX),
    (2, r.meanY), (2, r.meanT), (2, r.samples), (2, x), (2, y), (1, r.passCount), (2, r.speedA), (2, r.speedB),
    (1, r.differential), (2, r.density.getD 0),
    (1, weights [m.noSample, m.inclClamped, m.depthSuspect, m.gapBridged, m.revised, m.exceedsX, m.exceedsY])]

/-- The fields of the geometry record, in the order of their numbers (12.4). -/
def geometryLayout (g : Geometry) : List (Nat × Int) :=
  [(4, g.panelId), (2, g.spacing), (4, g.start), (4, g.design), (2, g.length), (2, g.width), (2, g.groundDensity),
    (2, g.encoderStep), (1, g.pprWheel), (1, g.pprPump), (2, g.displacement), (2, g.settleDistance),
    (2, g.repassHeight), (1, g.tolerance)]

/-- The fields of the archive's header page (R176, 12.4). -/
def headerLayout (s : State) : List (Nat × Int) :=
  geometryLayout s.geometry ++ [(2, (s.geometry.stations : Int))] ++ summaryLayout s.table ++ countersLayout s
  ++ [(1, (s.ret.state.code : Int))]

/-! ## Archive -/

/-- The pages of the panel as the state stands (R176, 12.4): the header page, 101 bytes, and then the station pages,
each with sixteen station entries, 384 bytes. -/
def PagesAgree (s : State) (pages : List (List Byte)) : Prop :=
  pages.length = (s.geometry.stations + 15) / 16 + 1
  ∧ pages[0]? = some (laid (headerLayout s)) ∧ (CounterLaw s → (laid (headerLayout s)).length = 101)
  ∧ ∀ p, p < (s.geometry.stations + 15) / 16 → ∃ page, pages[p + 1]? = some page ∧ page.length = 384
      ∧ page = ((List.range 16).map fun i => stationEntry s.table.records (16 * p + i)).flatten

/-- A table in which only the holds differ, each reviewed. -/
def HoldsReviewed (t u : StationTable) : Prop :=
  u = { t with holdCab := u.holdCab, holdPlant := u.holdPlant, holdRecord := u.holdRecord }
    ∧ ∀ l, Reviewed t.records (t.hold l) (u.hold l)

/-- A slot after its erase: EMPTY and blank, or FAULTY (R178). -/
def erased (blank : Bool) (x : Slot) : Slot :=
  if blank then { state := .empty, panelId := none, pageCount := none, readMarks := 0, pages := [] }
  else { x with state := .faulty }

/-- ARCHIVE_FAULT, when a slot did not verify. -/
def eraseFlags (blank : Bool) : List Flag := if blank then [] else [.archiveFault]

/-- The number of entries that a group write may have: one for each field (R154). -/
def groupFields : Instr → Option Nat
  | .setWheel => some 10
  | .setFeed => some 5
  | .setTuning => some 28
  | .setPump => some 14
  | _ => none

end Sys2Proof.Safety
end

