-- ==== Sys2Proof/Certificates/Slice0/Obligations.lean ====
section
/-! DEFINITION. The statements for the provers, in the order of OBLIGATIONS.json: the step, the resets, the laws of
the device, the links, and then the commands block by block. -/

open Sys2Proof Sys2Proof.Machine Sys2Proof.Safety

/-! ## The step -/

/-- A step with a command waiting takes the command at the front of the queue, with the queue's rest. -/
def Obligations.StepRunsFrontCommand : Prop :=
  ∀ (s : State) (c : Instr) (rest : List Instr), s.pending = c :: rest → step s = exec c { s with pending := rest }

/-- With no command waiting the block stands still under the reset line, lets 1 µs pass when no event of its own is
ready, and otherwise takes one that is ready. The model's choice: log entry 2. -/
def Obligations.IdleStepTakesAReadyEvent : Prop :=
  ∀ s : State, s.pending = [] →
    (s.resetLine = true → step s = .next s)
    ∧ (s.resetLine = false → ready s = [] → step s = .next { s with clock := s.clock + 1 })
    ∧ (s.resetLine = false → ready s ≠ [] → ∃ c ∈ ready s, step s = exec c { s with draws := s.draws + 1 })

/-- Every command completes in a next state, in every state of the block, and leaves the queue as it is: the block
never stops. The model's reading: that no command stops the block is log entry 31, that the resets keep the queue log
entry 13. -/
def Obligations.EveryCommandCompletes : Prop :=
  ∀ (c : Instr) (s : State), Completes c s fun t => t.pending = s.pending

/-! ## Resets (1.8) -/

/-- Right after reset the block has the values of the chapters' reset tables, no command waits, and every law of the
device holds. The archive's slots are EMPTY and the encoder lines read 00 then, the PWM period and the loaded-time
timer start at COLD, and the model's own fields are empty, no free choice being counted: the model's choices, log
entries 10, 11, 24, 25 and 37. -/
def Obligations.ResetHasColdValuesAndMeetsTheLaws : Prop :=
  ColdValues State.reset ∧ State.reset.resetLine = false ∧ State.reset.pending = []
    ∧ State.reset.archive = { slots := List.replicate 8 {}, engine := .idle }
    ∧ State.reset.depth.lineA = false ∧ State.reset.depth.lineB = false ∧ State.reset.draws = 0
    ∧ FeedHoldLaw State.reset ∧ ConverterLaw State.reset ∧ GeometryLaw State.reset ∧ TableLaw State.reset
    ∧ WalkerLaw State.reset ∧ SummaryLaw State.reset ∧ BufferLaw State.reset ∧ DemandLaw State.reset
    ∧ DifferentialLaw State.reset ∧ DriveLaw State.reset ∧ PlateLaw State.reset ∧ BacklogLaw State.reset
    ∧ CounterLaw State.reset ∧ ReleaseLaw State.reset ∧ QueueLaw State.reset ∧ ArchiveLaw State.reset
    ∧ OffsetLaw State.reset ∧ WaitingLaw State.reset

/-- COLD gives every block its COLD values and releases the reset line; asserting the line gives the same values and
holds it: both complete in every state. The archive keeps its slots, but that WRITING and ERASING become FAULTY, and
its engine is IDLE. The model's choice or reading in it: that the reset line acts at once, log entry 12; that the
waiting commands and the encoder levels are kept, log entry 13; that the PWM period and the loaded-time timer start
then, log entry 24; the model's own fields, log entry 25; that the capture timers hold no edge, log entry 37. -/
def Obligations.ColdTakesEffect : Prop :=
  ∀ s : State,
    let keeps : State → Prop := fun t =>
      t.pending = s.pending ∧ t.depth.lineA = s.depth.lineA ∧ t.depth.lineB = s.depth.lineB
      ∧ t.archive.engine = .idle ∧ t.archive.slots = s.archive.slots.map fun x =>
          match x.state with
          | .writing => { x with state := .faulty }
          | .erasing => { x with state := .faulty }
          | _ => x
    Completes .cold s (fun t => ColdValues t ∧ t.resetLine = false ∧ keeps t)
      ∧ Completes .resetLineAssert s (fun t => ColdValues t ∧ t.resetLine = true ∧ keeps t)

/-- While the reset line is asserted no command but COLD and the line itself has an effect; of an encoder transition
only the levels are kept. The model's choice or reading in it: log entry 12. -/
def Obligations.ResetLineHoldsTheBlock : Prop :=
  ∀ (s : State) (c : Instr), s.resetLine = true → c ≠ .resetLineAssert → c ≠ .cold →
    exec c s = .next (match c with
      | .encoderTransition first second => { s with depth := { s.depth with lineA := first, lineB := second } }
      | _ => s)

/-- WARM, due once a RESTART has been accepted and its reply has left the Cab link, sets exactly what the reset tables'
WARM columns name and keeps the rest; the feed-hold line is asserted after it, and FEED_HOLD is raised into the cleared
flag sets if it was released before. The model's choice or reading in it: log entries 8, 17 and 21. -/
def Obligations.WarmKeepsTheRecord : Prop :=
  ∀ s : State, s.resetLine = false → s.links.restarting = true → s.links.cab.replies = [] → Completes .warm s fun t =>
    let wheelAfter : WheelDrive → WheelDrive := fun d =>
      { motor := { target := 0, working := 0, integ := 0, computed := 0, applied := 0, speed := 0
                   lastEdge := d.motor.lastEdge, noSpeed := true, pickupTimer := none
                   loopTimer := d.motor.loopTimer, rev := d.motor.rev }
        state := .stopped, dirOut := .forward, dirStatus := .forward, stalls := [], confirm := none
        reverseTimer := none, loaded := false, loadedTime := d.loadedTime, bands := d.bands }
    t = { s with
      acq := coldAcquisition s.clock s.acq.zero
      depth := { s.depth with
        reasons := { s.depth.reasons with
          driveA := true, driveB := true, wheel := true, acqOff := false, acqFault := false }
        feedHold := true }
      table := { s.table with holdCab := .free, holdPlant := .free, holdRecord := .free }
      align := { steer := .auto, diff := 0, demands := { af := 0, ar := 0, bf := 0, br := 0 }
                 status := .inactive, cause := .none, stage := none }
      drives := { s.drives with a := wheelAfter s.drives.a, b := wheelAfter s.drives.b }
      plates := { af := t.plates.af, ar := t.plates.ar, bf := t.plates.bf, br := t.plates.br
                  override := s.plates.override }
      demand := { s.demand with
        wheel := { baseSpeed := 0, direction := .forward, steer := .auto, manualDiff := 0
                   manual := { af := 0, ar := 0, bf := 0, br := 0 }, targetX := 0, targetY := 0 }
        life := none
        expired := true }
      links := t.links }
    ∧ (∀ i, coldPlate (t.plate i))
    ∧ t.links.turn = .cab ∧ t.links.levelZeroGrants = 0 ∧ t.links.restarting = false
    ∧ ∀ l, t.link l =
        { receiver := none, bytePause := none, rx := [], replies := [], overrun := false, silent := (s.link l).silent
          silence := (s.link l).silence, mask := 0, lastSent := (s.link l).lastSent
          flags := if s.depth.feedHold then 0 else Flag.only .feedHold }

/-! ## Laws of the device -/

/-- Every step keeps the feed governor's law: each reason is held exactly while its condition holds, and the line is
asserted exactly while a reason is held. -/
def Obligations.StepKeepsFeedHoldLaw : Prop :=
  ∀ s t : State, FeedHoldLaw s → ConverterLaw s → step s = .next t → FeedHoldLaw t ∧ ConverterLaw t

/-- Every step keeps the station table ordered, without two records of one index, and within the station count, which
stays at most 1024; it keeps a geometry record in force that passes the check; it keeps the deviation summary that of
the table, with the greatest magnitude on each axis among the SETTLED records that are not stale, at the lowest index
that has it, or 0 and no index, and the counts of their exceedance marks; every prepared buffer the current settled records of its range, and a hold WAITING only while a record of its
range is OPEN or stale. -/
def Obligations.StepKeepsTableSummaryAndBufferLaws : Prop :=
  ∀ s t : State, GeometryLaw s → TableLaw s → step s = .next t →
    GeometryLaw t ∧ TableLaw t ∧ (SummaryLaw s → SummaryLaw t ∧ SummaryAgrees t.table) ∧ (BufferLaw s → BufferLaw t)
      ∧ (WaitingLaw s → WaitingLaw t)

/-- Every step keeps the restitch walker's law: whenever the walker is IDLE no record is stale, and every record that
is not stale has the offsets of its predecessor plus its own contribution. It keeps every offset, stale or not, within
10,240,000,000 nm, and every mean within −2048 … +2047. -/
def Obligations.StepKeepsWalkerLaw : Prop :=
  ∀ s t : State, GeometryLaw s → TableLaw s → step s = .next t →
    (WalkerLaw s → WalkerLaw t) ∧ (OffsetLaw s → OffsetLaw t)

/-- Every step keeps the demand groups in their ranges, the applied differential within the Dmax in force, the wheel
targets within 0 … 400, and the drives' other values in their ranges. -/
def Obligations.StepKeepsDemandAndDriveLaws : Prop :=
  ∀ s t : State, DemandLaw s → DifferentialLaw s → DriveLaw s → step s = .next t →
    DemandLaw t ∧ DifferentialLaw t ∧ DriveLaw t

/-- Every step keeps every plate demand within 0 … 100, the outputs of each plate those of its state (so never both
on), the backlog within 0 … 1,000,000 mL, each of the seventeen counters within 0 … 16,777,215, the queues of each link
within four, the count of level-0 grants within four, and the released mark of a link that does not own the PUMP group
clear. -/
def Obligations.StepKeepsOutputsAndBounds : Prop :=
  ∀ s t : State, step s = .next t →
    (PlateLaw s → PlateLaw t) ∧ (BacklogLaw s → BacklogLaw t) ∧ (CounterLaw s → CounterLaw t)
      ∧ (QueueLaw s → QueueLaw t) ∧ (ReleaseLaw s → ReleaseLaw t)

/-- Every step keeps the slots in step with the one operation in flight and with the panel state. That a slot is
reserved only while the walker is WALKING is the model's reading: log entry 18. -/
def Obligations.StepKeepsArchiveLaw : Prop :=
  ∀ s t : State, ArchiveLaw s → step s = .next t → ArchiveLaw t

/-- A drive's direction output changes only while that drive's applied duty is 0. -/
def Obligations.DirectionChangesOnlyWithValveClosed : Prop :=
  ∀ (c : Instr) (s t : State) (w : WheelId), exec c s = .next t → (t.wheel w).dirOut ≠ (s.wheel w).dirOut →
    (t.wheel w).motor.applied = 0

/-- A counter decreases only when it is zeroed by OPEN PANEL, CLEAR TALLIES or COLD (the reset line's assertion
included). -/
def Obligations.CountersDecreaseOnlyWhenZeroed : Prop :=
  ∀ (c : Instr) (s t : State), exec c s = .next t → CounterLaw s →
    (∀ (i : Nat) (x y : Counter), (counters s)[i]? = some x → (counters t)[i]? = some y → x.value ≤ y.value)
      ∨ ((c = .openPanel ∨ c = .clearTallies ∨ c = .cold ∨ c = .resetLineAssert)
          ∧ ∀ y ∈ counters t, y.value = 0 ∧ y.near = false)

/-- The geometry record, the panel state, the owner of the PUMP group and a HELD slot change only at the commands the
spec names: the record at OPEN PANEL, EXTEND DEPTH and COLD; the panel state at OPEN PANEL, CLOSE PANEL, ABANDON PANEL,
the end of the close write and COLD, in the steps of the transition table; the owner at TAKE PUMP, RECLAIM PUMP and
COLD; and a HELD slot by being read through, to RELEASED, or by a wipe, to ERASING. -/
def Obligations.RecordPanelOwnerAndSlotChangeOnlyAsNamed : Prop :=
  ∀ (c : Instr) (s t : State), ArchiveLaw s → exec c s = .next t →
    (c ≠ .cold → c ≠ .resetLineAssert →
      (t.geometry ≠ s.geometry → (c = .openPanel ∧ t.panel = .active) ∨
        (c = .extendDepth ∧ s.panel = .active ∧ t.geometry = { s.geometry with design := t.geometry.design }
          ∧ s.geometry.design < t.geometry.design))
      ∧ (t.panel ≠ s.panel →
          (c = .openPanel ∧ (s.panel = .idle ∨ s.panel = .closed) ∧ t.panel = .active)
          ∨ (c = .closePanel ∧ s.panel = .active ∧ t.panel = .closing)
          ∨ (c = .abandonPanel ∧ (s.panel = .active ∨ s.panel = .closed) ∧ t.panel = .idle)
          ∨ ((∃ v, c = .pageProgramCompletion v) ∧ s.panel = .closing ∧ t.panel = .closed))
      ∧ (t.demand.owner ≠ s.demand.owner →
          ((c = .takePump ∧ t.demand.owner = .cab) ∨ (c = .reclaimPump ∧ t.demand.owner = .plant))
            ∧ t.demand.releasedPlant = false ∧ t.demand.releasedCab = false ∧ t.demand.pump = s.demand.pump))
    ∧ ∀ i, (s.slot i).state = .held →
        (t.slot i).state = .held
        ∨ (c = .readArchive ∧ (t.slot i).state = .released
            ∧ ∀ p, p < ((s.slot i).pageCount.getD 0) → (t.slot i).readMarks.getLsbD p = true)
        ∨ ((t.slot i).state = .erasing ∧ ∃ rest due, t.archive.engine = .wipe i rest due)

/-! ## Links (10_master_links.md) -/

/-- A valid frame that arrives whole on an idle receiver, after any bytes that are no marker, reloads the silence
timer, makes the link ACTIVE, and joins the tail of the receive queue if fewer than four frames wait; otherwise it is
discarded and the overrun mark is set. The model's choice or reading in it: log entry 9. -/
def Obligations.ValidFrameJoinsQueue : Prop :=
  ∀ (s : State) (l : Link) (idle : List Byte) (f : Frame),
    s.resetLine = false → (s.link l).receiver = none → marker ∉ idle → f.payload.length ≤ 240 →
    exec (.frameReceived l (idle ++ requestBytes f)) s = .next (s.setLink l
      { s.link l with
        bytePause := none
        silent := false
        silence := some (s.clock + 3000000)
        rx := if (s.link l).rx.length < 4 then (s.link l).rx ++ [f] else (s.link l).rx
        overrun := (s.link l).overrun || decide (4 ≤ (s.link l).rx.length) })

/-- A frame with a length above 240, one whose check fails, and one in progress when more than 10 ms pass, are
discarded: LINK_ERROR is set in that link's own flag set, and nothing else of any link changes. The model's choice or
reading in it: log entries 7 and 9. -/
def Obligations.BadFrameIsDiscarded : Prop :=
  ∀ (s : State) (l : Link), s.resetLine = false →
    (∀ (seq kind len : Byte), (s.link l).receiver = none → 240 < len.toNat →
      exec (.frameReceived l [marker, seq, kind, len]) s = .next (s.setLink l
        { s.link l with bytePause := none, flags := (s.link l).flags ||| Flag.only .linkError }))
    ∧ (∀ (seq kind len c1 c2 : Byte) (payload : List Byte), (s.link l).receiver = none →
        payload.length = len.toNat → len.toNat ≤ 240 → [c1, c2] ≠ checkBytes (seq :: kind :: len :: payload) →
        exec (.frameReceived l (marker :: seq :: kind :: len :: payload ++ [c1, c2])) s = .next (s.setLink l
          { s.link l with bytePause := none, flags := (s.link l).flags ||| Flag.only .linkError }))
    ∧ (∀ due, (s.link l).bytePause = some due →
        exec (.bytePauseTimeout l) s = .next (State.setLink { s with clock := max s.clock due } l
          { s.link l with
            receiver := none, bytePause := none, flags := (s.link l).flags ||| Flag.only .linkError }))

/-- A reply that has left frees its place in the reply queue; a silence expiry makes the link SILENT and raises
LINK_SILENT in all three flag sets. The model's choice or reading in it: log entries 7 and 30. -/
def Obligations.ReplyLeavesAndLinkFallsSilent : Prop :=
  ∀ (s : State) (l : Link), s.resetLine = false →
    (∀ r rs, (s.link l).replies = r :: rs → exec (.replySent l) s = .next (s.setLink l
      { s.link l with replies := rs, lastSent := some (replyBytes r) }))
    ∧ (∀ due, (s.link l).silence = some due → Completes (.silenceExpiry l) s fun t =>
        t = { s with clock := max s.clock due, links := t.links }
        ∧ t.links.turn = s.links.turn ∧ t.links.levelZeroGrants = s.links.levelZeroGrants
        ∧ t.links.restarting = s.links.restarting ∧ Raised [.linkSilent] s t
        ∧ t.link l = { s.link l with silent := true, silence := none, flags := (t.link l).flags }
        ∧ ∀ k, k ≠ l → t.link k = { s.link k with flags := (t.link k).flags })

/-- The arbiter: a link waits when it has a head request and room for a reply; the Record link is granted when it
waits and no level-0 link does, or the count of level-0 grants has reached four; otherwise a level-0 link that waits is
granted, the one that holds the turn if both wait; nothing is granted while a RESTART awaits its WARM (1.8), which the
model holds as a mark of its own: log entry 8. -/
def Obligations.ArbiterGrantsByTurn : Prop :=
  ∀ s : State,
    (s.links.restarting = true → grant s = none)
    ∧ (s.links.restarting = false →
      let waits : Link → Prop := fun l => (s.link l).rx ≠ [] ∧ (s.link l).replies.length < 4
      let recordTurn : Prop := waits .record ∧ ((¬waits .cab ∧ ¬waits .plant) ∨ 4 ≤ s.links.levelZeroGrants)
      (∀ l f, grant s = some (l, f) → (s.link l).rx.head? = some f ∧ waits l)
      ∧ ((∃ l f, grant s = some (l, f)) ↔ ∃ l, waits l)
      ∧ ((∃ f, grant s = some (.record, f)) ↔ recordTurn)
      ∧ ((∃ f, grant s = some (.cab, f)) ↔ ¬recordTurn ∧ waits .cab ∧ (waits .plant → s.links.turn = .cab))
      ∧ ((∃ f, grant s = some (.plant, f)) ↔ ¬recordTurn ∧ waits .plant ∧ (waits .cab → s.links.turn = .plant)))

/-- A request from a link that the request table does not allow is refused NOT_PERMITTED, and a request of the PUMP
group from the level-0 link that does not own it NOT_OWNER, whatever its payload. A request of fixed length whose
payload has another is refused BAD_LENGTH. A kind that names no request is refused UNKNOWN. In each case nothing else
changes. -/
def Obligations.WrongLinkLengthAndKindAreRefused : Prop :=
  (∀ (c : Instr) (kind : Byte) (acc : Access) (s : State) (l : Link) (f : Frame),
    requestRow c = some (kind, acc) → Granted kind l f s →
    (∀ r, barred s.demand.owner l acc = some r → Refuses c l f r [] s)
    ∧ (∀ n, requestLength c = some n → barred s.demand.owner l acc = none → f.payload.length ≠ n →
        Refuses c l f .badLength [] s))
  ∧ ∀ (s : State) (l : Link) (f : Frame), Granted f.kind l f s →
      (∀ c kind acc, requestRow c = some (kind, acc) → kind ≠ f.kind) → Refuses .unknownRequest l f .unknown [] s

/-- A request row whose kind is not the granted one, an expiry or completion whose timer or engine does not run, a WARM
without a RESTART before it or with its reply not yet sent, and the end of a reply where none waits, have no effect. The
model's choice: log entries 5, 6, 8 and 30. -/
def Obligations.EventsThatAreNotDueHaveNoEffect : Prop :=
  ∀ s : State,
    (∀ c kind acc, requestRow c = some (kind, acc) → (∀ l f, grant s = some (l, f) → f.kind ≠ kind) →
      exec c s = .next s)
    ∧ (s.links.restarting = false ∨ s.links.cab.replies ≠ [] → exec .warm s = .next s)
    ∧ (∀ l, (s.link l).replies = [] → exec (.replySent l) s = .next s)
    ∧ (∀ l, (s.link l).bytePause = none → exec (.bytePauseTimeout l) s = .next s)
    ∧ (∀ l, (s.link l).silence = none → exec (.silenceExpiry l) s = .next s)
    ∧ (∀ v, (∀ i p im due, s.archive.engine ≠ .programming i p im due) →
        exec (.pageProgramCompletion v) s = .next s)
    ∧ (∀ v, (∀ i due, s.archive.engine ≠ .erase i due) → (∀ i rest due, s.archive.engine ≠ .wipe i rest due) →
        exec (.eraseCompletion v) s = .next s)
    ∧ (s.acq.scanTimer = none → exec .scanTimerExpiry s = .next s)
    ∧ (∀ raw, s.acq.conversion = none → exec (.conversionCompletion raw) s = .next s)
    ∧ (s.table.walker = none → exec .restitchStepCompletion s = .next s)
    ∧ (∀ d, (s.motor d).pickupTimer = none → exec (.pickupTimeout d) s = .next s)
    ∧ (∀ w, (s.wheel w).confirm = none → exec (.stallConfirmExpiry w) s = .next s)
    ∧ (∀ w, (s.wheel w).reverseTimer = none → exec (.reverseTimerExpiry w) s = .next s)
    ∧ (∀ i, (s.plate i).travel = none → exec (.travelTimerExpiry i) s = .next s)
    ∧ (s.ret.staleTimer = none → exec .reportStaleExpiry s = .next s)
    ∧ (s.ret.confirm = none → exec .blockageConfirmExpiry s = .next s)
    ∧ (s.ret.recovery = none → exec .recoveryTimerExpiry s = .next s)
    ∧ (s.demand.life = none → exec .wheelDemandExpiry s = .next s)

/-! ## Panels (01_panels_and_geometry.md) -/

/-- OPEN PANEL, in IDLE or CLOSED: a record with every field in range becomes the record in force and the panel
ACTIVE; the table is emptied, the tallies and the backlog are 0, the final-depth condition is clear; with the encoder
step unchanged a referenced floor is placed below the frame, and with a changed step the depth is UNREFERENCED and the
count kept within the bound or set to 0 with the window start moved alike. In ACTIVE and CLOSING it is refused
WRONG_STATE, and the first field out of range refuses it BAD_VALUE with that field's number; from another link it is
refused NOT_PERMITTED, and with a payload that is no geometry record BAD_LENGTH. With a changed encoder step, in which
order the feed governor takes the changes, and so whether FEED_HOLD is raised, is free: the model's choice, log entry 1.
-/
def Obligations.OpenPanelStartsAPanel : Prop :=
  (∀ (s : State) (l : Link) (f : Frame), Granted 0x10 l f s →
    (l ≠ .cab → Refuses .openPanel l f .notPermitted [] s)
    ∧ (l = .cab → f.payload.length ≠ 31 → Refuses .openPanel l f .badLength [] s))
  ∧ ∀ (s : State) (f : Frame), Granted 0x10 .cab f s → f.payload.length = 31 →
    let g := geometryOf f.payload
    (s.panel = .active ∨ s.panel = .closing → Refuses .openPanel .cab f .wrongState [] s)
    ∧ (s.panel = .idle ∨ s.panel = .closed → ∀ n, ¬FieldOk g n → (∀ m, m < n → FieldOk g m) →
        Refuses .openPanel .cab f .badValue [BitVec.ofNat 8 n] s)
    ∧ (s.panel = .idle ∨ s.panel = .closed → (∀ n, FieldOk g n) → Completes .openPanel s fun t =>
        let reasons : HoldReasons := { s.depth.reasons with
          panel := false
          final := false
          reference := if g.encoderStep = s.geometry.encoderStep then s.depth.reasons.reference else true }
        t = { s with
          panel := .active, geometry := g, depth := t.depth, table := t.table, drives := TalliesZeroed s.drives
          ret := { s.ret with backlog := 0 }, links := t.links, draws := t.draws }
        ∧ TableEmptied s.table t.table
        ∧ t.depth = { Governed s.depth reasons with
            final := false, count := t.depth.count, windowStart := t.depth.windowStart, ref := t.depth.ref
            floor := t.depth.floor }
        ∧ (g.encoderStep = s.geometry.encoderStep →
            t.depth.count = s.depth.count ∧ t.depth.windowStart = s.depth.windowStart ∧ t.depth.ref = s.depth.ref
            ∧ (s.depth.ref = .unreferenced → t.depth.floor = s.depth.floor)
            ∧ (s.depth.ref ≠ .unreferenced → IsFloor g (s.depth.count * g.encoderStep) t.depth.floor)
            ∧ Raised (holdChange s t) s t)
        ∧ (g.encoderStep ≠ s.geometry.encoderStep →
            t.depth.ref = .unreferenced ∧ t.depth.floor = s.depth.floor
            ∧ (if |s.depth.count * g.encoderStep| ≤ 1000000000
                then t.depth.count = s.depth.count ∧ t.depth.windowStart = s.depth.windowStart
                else t.depth.count = 0 ∧ t.depth.windowStart = s.depth.windowStart - s.depth.count)
            ∧ (Raised [] s t ∨ Raised [.feedHold] s t))
        ∧ Answered .cab f { outcome := .done } s.links.cab.mask false s t)

/-- CLOSE PANEL, in ACTIVE: with an operation in flight it is refused BUSY, with no EMPTY slot NO_SLOT; otherwise the
lowest EMPTY slot is reserved, the panel is CLOSING and the feed held. With the walker WALKING nothing more happens
yet; with the walker IDLE every OPEN record is settled with its tolerance check, the holds are reviewed, and the write
of page 0 starts, with the header page and the station pages as the table then stands. In every other panel state it is
refused WRONG_STATE. The model's choice or reading in it: log entry 18. -/
def Obligations.ClosePanelReservesASlot : Prop :=
  ∀ (s : State) (f : Frame), Granted 0x11 .cab f s → f.payload = [] →
    (s.panel ≠ .active → Refuses .closePanel .cab f .wrongState [] s)
    ∧ (s.panel = .active → s.archive.engine ≠ .idle → Refuses .closePanel .cab f .busy [] s)
    ∧ (s.panel = .active → s.archive.engine = .idle → (∀ x ∈ s.archive.slots, x.state ≠ .empty) →
        Refuses .closePanel .cab f .noSlot [] s)
    ∧ (∀ (i : Nat) (x : Slot), s.panel = .active → s.archive.engine = .idle → s.archive.slots[i]? = some x →
        x.state = .empty → (∀ j y, j < i → s.archive.slots[j]? = some y → y.state ≠ .empty) →
        TableLaw s → WalkerLaw s → Completes .closePanel s fun t =>
          t = { s with
            panel := .closing
            depth := Governed s.depth { s.depth.reasons with panel := true }
            table := t.table
            archive := { slots := s.archive.slots.set i
                           { state := .writing, panelId := some s.geometry.panelId
                             pageCount := some ((s.geometry.stations + 15) / 16 + 1), readMarks := 0, pages := [] }
                         engine := t.archive.engine }
            links := t.links }
          ∧ Raised (holdChange s t ++ toleranceChange s t) s t
          ∧ Answered .cab f { outcome := .accepted } s.links.cab.mask false s t
          ∧ (s.table.walker ≠ none → t.table = s.table ∧ t.archive.engine = .reserved i)
          ∧ (s.table.walker = none →
              t.table = { s.table with
                records := s.table.records.map fun r =>
                  if r.state = .opened then SettledRecord s.geometry r else r
                summary := t.table.summary, firstX := t.table.firstX, firstY := t.table.firstY
                holdCab := t.table.holdCab, holdPlant := t.table.holdPlant, holdRecord := t.table.holdRecord }
              ∧ (t.table.firstX = true ↔ s.table.firstX = true ∨
                  ∃ r ∈ t.table.records, r.marks.exceedsX = true ∧ r ∉ s.table.records)
              ∧ (t.table.firstY = true ↔ s.table.firstY = true ∨
                  ∃ r ∈ t.table.records, r.marks.exceedsY = true ∧ r ∉ s.table.records)
              ∧ t.archive.engine = .programming i 0 (panelPages t) (s.clock + 5000)
              ∧ PagesAgree t (panelPages t)
              ∧ (WaitingLaw s → ∀ l, Reviewed t.table.records (s.table.hold l) (t.table.hold l))))

/-- ABANDON PANEL empties the table, makes the panel IDLE and holds the feed, and keeps the record in force, the
tallies and the backlog. EXTEND DEPTH takes a deeper design depth within the span and station limits, and clears the
final-depth condition exactly when the new last station lies deeper than the frame; the floor and the records stay. -/
def Obligations.AbandonAndExtend : Prop :=
  (∀ (s : State) (f : Frame), Granted 0x12 .cab f s → f.payload = [] →
    (s.panel = .idle → Refuses .abandonPanel .cab f .wrongState [] s)
    ∧ (s.panel = .closing → Refuses .abandonPanel .cab f .busy [] s)
    ∧ (s.panel = .active ∨ s.panel = .closed → Completes .abandonPanel s fun t =>
        t = { s with
          panel := .idle, table := t.table
          depth := Governed s.depth { s.depth.reasons with panel := true }, links := t.links }
        ∧ TableEmptied s.table t.table ∧ Raised (holdChange s t) s t
        ∧ Answered .cab f { outcome := .done } s.links.cab.mask false s t))
  ∧ (∀ (s : State) (f : Frame) (a b c d : Byte), Granted 0x13 .cab f s → f.payload = [a, b, c, d] →
    let design := four a b c d
    let g := { s.geometry with design := design }
    let fits : Prop := s.geometry.design < design ∧ design - g.start ≤ 200000 ∧ g.stations ≤ 1024
    (s.panel ≠ .active → Refuses .extendDepth .cab f .wrongState [] s)
    ∧ (s.panel = .active → ¬fits → Refuses .extendDepth .cab f .badValue [4] s)
    ∧ (s.panel = .active → fits → g.start ≤ g.design → Completes .extendDepth s fun t =>
        let clears := s.depth.count * g.encoderStep < (g.start + ((g.stations : Int) - 1) * g.spacing) * 1000
        t = { s with
          geometry := g
          depth := if clears then { Governed s.depth { s.depth.reasons with final := false } with final := false }
                   else s.depth
          links := t.links }
        ∧ Raised (holdChange s t) s t ∧ Answered .cab f { outcome := .done } s.links.cab.mask false s t))

/-! ## Depth and feed (03_depth_feed_and_station_crossing.md) -/

/-- SET DEPTH sets the count whose depth is nearest the requested one, the larger of two, moves the window start with
it, makes the depth REFERENCED, places the floor (but in CLOSING) and clears the accumulator; a depth outside
−100,000 … +400,000 mm is refused BAD_VALUE. -/
def Obligations.SetDepthReferences : Prop :=
  ∀ (s : State) (f : Frame) (a b c d : Byte), Granted 0x14 .cab f s → f.payload = [a, b, c, d] →
    let mm := signedFour a b c d
    (mm < -100000 ∨ 400000 < mm → Refuses .setDepth .cab f .badValue [] s)
    ∧ (-100000 ≤ mm → mm ≤ 400000 → 0 < s.geometry.encoderStep → Completes .setDepth s fun t =>
        t = { s with
          depth := { Governed s.depth { s.depth.reasons with reference := false } with
            count := t.depth.count
            windowStart := s.depth.windowStart + (t.depth.count - s.depth.count)
            ref := .referenced
            floor := t.depth.floor }
          table := { s.table with acc := { sumX := 0, sumY := 0, sumT := 0, count := 0, clampedSeen := false } }
          links := t.links }
        ∧ IsNearest s.geometry.encoderStep (mm * 1000) t.depth.count
        ∧ (s.panel = .closing → t.depth.floor = s.depth.floor)
        ∧ (s.panel ≠ .closing → IsFloor s.geometry (t.depth.count * s.geometry.encoderStep) t.depth.floor)
        ∧ Raised (holdChange s t) s t
        ∧ Answered .cab f { outcome := .done, payload := field 4 ((t.depth.count * s.geometry.encoderStep) / 1000) }
            s.links.cab.mask false s t)

/-- The encoder: one step down adds 1 to the count and one step up takes 1 from it, while the depth stays within the
bound; both lines at once, and a step beyond the bound, leave the count, raise DEPTH_FAULT and turn REFERENCED into
SUSPECT. The levels are kept in every case. Nothing else changes with the panel neither ACTIVE nor CLOSING, or the
depth UNREFERENCED, and at a step down that passes neither the depth of the floor station nor a settlement line. -/
def Obligations.EncoderMovesTheCount : Prop :=
  ∀ (s : State) (first second : Bool), s.resetLine = false →
    let before := phaseOf s.depth.lineA s.depth.lineB
    let after := phaseOf first second
    let counted : Int → Prop := fun step => |(s.depth.count + step) * s.geometry.encoderStep| ≤ 1000000000
    let moves : Int → Prop := fun step => Completes (.encoderTransition first second) s fun t =>
      t.depth.count = s.depth.count + step ∧ t.depth.lineA = first ∧ t.depth.lineB = second
      ∧ t.depth.ref = s.depth.ref
      ∧ ((s.panel ≠ .active ∧ s.panel ≠ .closing) ∨ s.depth.ref = .unreferenced →
          t = { s with depth := { s.depth with count := s.depth.count + step, lineA := first, lineB := second } })
    let illegal : Prop := Completes (.encoderTransition first second) s fun t =>
      let ref := if s.depth.ref = .referenced then RefState.suspect else s.depth.ref
      t = { s with
        depth := { s.depth with lineA := first, lineB := second, ref := ref, reasons := t.depth.reasons
                                feedHold := t.depth.feedHold }
        links := t.links }
      ∧ (FeedHoldLaw s → t.depth.reasons = s.depth.reasons ∧ t.depth.feedHold = s.depth.feedHold
          ∧ LinksKept [.depthFault] s t)
    (after = (before + 1) % 4 → counted 1 → moves 1)
    ∧ (StepsBy s first second 1 →
        (s.panel = .active → s.depth.floor < s.geometry.stations →
          ¬Passes s (s.geometry.start + s.depth.floor * s.geometry.spacing)) →
        (∀ k : Nat, k < s.geometry.stations →
          ¬Passes s (s.geometry.start + k * s.geometry.spacing + s.geometry.settleDistance)) →
        exec (.encoderTransition first second) s = .next
          { s with depth := { s.depth with count := s.depth.count + 1, lineA := first, lineB := second } })
    ∧ (before = (after + 1) % 4 → counted (-1) → moves (-1))
    ∧ (after = (before + 2) % 4 → illegal)
    ∧ (after = (before + 1) % 4 → ¬counted 1 → illegal)
    ∧ (before = (after + 1) % 4 → ¬counted (-1) → illegal)
    ∧ (after = before → exec (.encoderTransition first second) s = .next s)

/-- The crossing of the armed floor station k: the floor advances, the record of k is created or replaced as R58 and
R59 build it with the offsets of R61, k becomes the reference station, the accumulator is cleared, and the prepared
holds that the change affects are WAITING again. Ahead of the walker's cursor, or with the walker IDLE, the record is
current, every deeper record becomes stale and the walker starts over above k; otherwise the record is stale and the
walk goes on. The crossing of station N − 1 sets the final-depth condition and raises FINAL_DEPTH. A settlement line
that the same transition passes, that of another station or of k itself, is taken after the crossing, on the state it
left. -/
def Obligations.CrossingBuildsTheRecord : Prop :=
  ∀ (s : State) (first second : Bool), StepsBy s first second 1 → s.panel = .active → s.depth.ref ≠ .unreferenced →
    TableLaw s → s.depth.floor < s.geometry.stations →
    Passes s (s.geometry.start + s.depth.floor * s.geometry.spacing) →
    let k := s.depth.floor
    let ahead := ∀ w, s.table.walker = some w → k < w.cursor
    let last := k + 1 = s.geometry.stations
    let passes (j : Nat) : Prop := j < s.geometry.stations ∧
      Passes s (s.geometry.start + j * s.geometry.spacing + s.geometry.settleDistance)
    Completes (.encoderTransition first second) s fun t => ∃ u : State,
      u = { s with
        depth := { (if last then { Governed s.depth { s.depth.reasons with final := true } with final := true }
                    else s.depth) with
          count := s.depth.count + 1, lineA := first, lineB := second, floor := k + 1 }
        table := { s.table with
          records := u.table.records
          acc := { sumX := 0, sumY := 0, sumT := 0, count := 0, clampedSeen := false }
          reference := some k, walker := u.table.walker, summary := u.table.summary
          holdCab := u.table.holdCab, holdPlant := u.table.holdPlant, holdRecord := u.table.holdRecord }
        links := u.links }
      ∧ LinksKept (if last then .finalDepth :: holdChange s u else []) s u
      ∧ (∃ r ∈ u.table.records, CrossedRecord s k r ∧ (r.stale = false ↔ ahead))
      ∧ (∀ q, q.index ≠ k → (q ∈ u.table.records ↔ ∃ o ∈ s.table.records,
          q = if ahead ∧ k < o.index then { o with stale := true } else o))
      ∧ u.table.records.Pairwise (fun r q => r.index < q.index)
      ∧ (ahead → IsWalkerAbove u.table.records k s.clock u.table.walker)
      ∧ (¬ahead → u.table.walker = s.table.walker)
      ∧ SummaryLaw u
      ∧ (∀ l, Invalidated
          (fun q => InRange q k ∨ (ahead ∧ ∃ o ∈ s.table.records, k < o.index ∧ InRange q o.index))
          (s.table.hold l) (u.table.hold l))
      ∧ ((∀ j, ¬passes j) → t = u)
      ∧ (GeometryLaw s → ∀ j, passes j → SettlesAt j u t)

/-- A settlement line passed without a crossing: an OPEN record of its station that is not stale becomes SETTLED with
its exceedance marks judged by the limit d_k × tolerance × 100, one that is stale becomes SETTLED only, and an absent
or SETTLED record is left; TOLERANCE is raised at the first exceedance on an axis, and the holds are reviewed. -/
def Obligations.SettlementLineSettlesTheRecord : Prop :=
  ∀ (s : State) (first second : Bool) (k : Nat), StepsBy s first second 1 →
    s.panel = .active ∨ s.panel = .closing → s.depth.ref ≠ .unreferenced → GeometryLaw s → TableLaw s →
    k < s.geometry.stations →
    Passes s (s.geometry.start + k * s.geometry.spacing + s.geometry.settleDistance) →
    (s.panel = .active → s.depth.floor < s.geometry.stations →
      ¬Passes s (s.geometry.start + s.depth.floor * s.geometry.spacing)) →
    Completes (.encoderTransition first second) s fun t =>
      SettlesAt k
        { s with depth := { s.depth with count := s.depth.count + 1, lineA := first, lineB := second } } t

/-- An upward transition re-arms the station above the floor once the frame stands more than the re-pass height above
it, and clears the accumulator; it changes nothing else, and no upward transition does. -/
def Obligations.RiseReArmsTheStation : Prop :=
  ∀ (s : State) (first second : Bool), StepsBy s first second (-1) →
    let up := { s.depth with count := s.depth.count - 1, lineA := first, lineB := second }
    let armed : Prop := s.panel = .active ∧ s.depth.ref ≠ .unreferenced ∧ 0 < s.depth.floor
      ∧ (s.depth.count - 1) * s.geometry.encoderStep
        < (s.geometry.start + ((s.depth.floor : Int) - 1) * s.geometry.spacing - s.geometry.repassHeight) * 1000
    (armed → exec (.encoderTransition first second) s = .next { s with
      depth := { up with floor := s.depth.floor - 1 }
      table := { s.table with acc := { sumX := 0, sumY := 0, sumT := 0, count := 0, clampedSeen := false } } })
    ∧ (¬armed → exec (.encoderTransition first second) s = .next { s with depth := up })

/-- A feed window expiry: the feed of the window that ended is Δµm × 60 / w, truncated and clamped; OVERFEED and its
count follow the limit published before; the window starts afresh with the FEED group's window; the backlog takes the
excavated and the removed volume in one step, clamped to 0 … 1,000,000; and then capacity, allowance, return state and
limit are decided again. The model's choice or reading in it: log entry 7. -/
def Obligations.FeedWindowMeasuresAndBalances : Prop :=
  ∀ (s : State) (due : Nat), s.resetLine = false → s.depth.windowTimer = some due → 0 < s.depth.windowLength →
    Completes .feedWindowExpiry s fun t =>
      let delta := (s.depth.count - s.depth.windowStart) * s.geometry.encoderStep
      let feed := max (-9999) (min 9999 ((delta * 60).tdiv s.depth.windowLength))
      let above := s.ret.limit + s.demand.feed.tolerance < feed
      let n := if above then min (s.depth.overCount + 1) 8 else 0
      let area := s.geometry.length * s.geometry.width / 100
      let excavated := (max delta 0 * area).tdiv 10000
      let removed := removedIn s.geometry s.ret s.depth.windowLength
      let measured := Governed s.depth { s.depth.reasons with overfeed := t.depth.overfeed }
      let after := afterReturn measured s.ret.state t.ret.state
      t = { s with
        clock := max s.clock due
        depth := { after with
          lastFeed := feed
          overCount := n
          overfeed := t.depth.overfeed
          windowStart := s.depth.count
          windowLength := s.demand.feed.window
          windowTimer := some (max s.clock due + s.demand.feed.window.toNat * 1000) }
        ret := { s.ret with
          backlog := max 0 (min 1000000 (s.ret.backlog + excavated - removed))
          capacity := t.ret.capacity, allowance := t.ret.allowance, limit := t.ret.limit, state := t.ret.state }
        links := t.links }
      ∧ (t.depth.overfeed = true ↔
          if above then s.depth.overfeed = true ∨ s.demand.feed.overfeedWindows ≤ n
          else s.ret.limit < feed ∧ s.depth.overfeed = true)
      ∧ AtWindow s.demand.pump { s.ret with backlog := t.ret.backlog } t.ret.state
      ∧ BalanceAgrees s.geometry s.demand t.ret
      ∧ LinksKept (returnChange s t ++ (if s.depth.feedHold = measured.feedHold ∧ measured.feedHold = after.feedHold
          then [] else [.feedHold])) s t

/-! ## Return balance (08_return_balance.md) -/

/-- REPORT RETURN: the clamped report becomes the last report and fresh, its stale timer starts, SENSOR_FAULT is raised
when the supply is no lighter than the ground; then capacity, allowance, return state and limit are decided, and the
reply carries the state and the limit. That the three fields are read unsigned is the model's choice: log entry 35. -/
def Obligations.ReportReturnJudges : Prop :=
  ∀ (s : State) (l : Link) (f : Frame) (q1 q2 r1 r2 u1 u2 : Byte), Granted 0x32 l f s →
    barred s.demand.owner l .pumpOwner = none → f.payload = [q1, q2, r1, r2, u1, u2] →
    let r : Report :=
      { flow := min 15000 (two q1 q2), returnDensity := max 1000 (min 3000 (two r1 r2))
        supplyDensity := max 1000 (min 3000 (two u1 u2)) }
    Completes .reportReturn s fun t =>
      t = { s with
        ret := { s.ret with
          report := some r, fresh := true, staleTimer := some (s.clock + s.demand.pump.staleTime.toNat * 1000)
          capacity := t.ret.capacity, allowance := t.ret.allowance, limit := t.ret.limit, state := t.ret.state }
        depth := afterReturn s.depth s.ret.state t.ret.state
        links := t.links }
      ∧ AtReport s.demand.pump { s.ret with report := some r, fresh := true } r.flow t.ret.state
      ∧ BalanceAgrees s.geometry s.demand t.ret
      ∧ Raised ((if s.geometry.groundDensity ≤ r.supplyDensity then [.sensorFault] else []) ++ returnChange s t
          ++ holdChange s t) s t
      ∧ Answered l f
          { outcome := .done
            clamped := decide (r.flow ≠ two q1 q2 ∨ r.returnDensity ≠ two r1 r2 ∨ r.supplyDensity ≠ two u1 u2)
            payload := BitVec.ofInt 8 t.ret.state.code :: field 2 t.ret.limit } (s.link l).mask false s t

/-- The Return Balance Unit's timers: at the report stale expiry the report stops being fresh, NORMAL becomes BLIND
and the limit follows the state; at the blockage confirm expiry a state that is not BLOCKED becomes BLOCKED with the
limit 0 and the feed held; at the recovery expiry BLOCKED becomes PRIMING, again with the limit 0. The model's choice
or reading in it: log entry 7. -/
def Obligations.ReturnTimersChangeTheState : Prop :=
  ∀ (s : State) (due : Nat), s.resetLine = false →
    let now := { s with clock := max s.clock due }
    (s.ret.staleTimer = some due → Completes .reportStaleExpiry s fun t =>
      t = { now with
        ret := { s.ret with
          fresh := false, staleTimer := none, limit := t.ret.limit
          state := if s.ret.state = .normal then .blind else s.ret.state }
        depth := afterReturn s.depth s.ret.state t.ret.state
        links := t.links }
      ∧ LimitAgrees s.demand t.ret ∧ LinksKept (returnChange s t ++ holdChange s t) s t)
    ∧ (s.ret.confirm = some due → s.ret.state ≠ .blocked →
        let u := { now with
          ret := { s.ret with state := .blocked, confirm := none, limit := 0 }
          depth := Governed s.depth { s.depth.reasons with ret := true } }
        Happens .blockageConfirmExpiry (.returnState :: holdChange s u) s u)
    ∧ (s.ret.recovery = some due → s.ret.state = .blocked →
        let u := { now with
          ret := { s.ret with state := .priming, recovery := none, limit := 0 }
          depth := Governed s.depth { s.depth.reasons with ret := true } }
        Happens .recoveryTimerExpiry (.returnState :: holdChange s u) s u)

/-! ## Demand groups and authority (09_demand_table_and_authority.md) -/

/-- SET WHEEL stores each named field, clamped to its range, with CLAMPED when a clamp changed a value; it tells the
Alignment Unit the steer mode and renews the wheel demand for 2,000 ms, as KEEP WHEEL does alone; the expiry of that
time sets the wheel demand expiry, raises WHEEL_EXPIRED and holds the feed. The model's choice or reading in it: log
entries 7 and 14. -/
def Obligations.WheelDemandIsStoredRenewedAndExpires : Prop :=
  (∀ (s : State) (f : Frame) (es : List (Nat × Int)), Granted 0x20 .cab f s → f.payload = groupPayload es →
    EntriesOk 10 es → (∀ e ∈ es, e.1 = 2 ∨ e.1 = 3 → e.2 = 0 ∨ e.2 = 1) → 0 ≤ s.demand.tuning.dMax →
    Completes .setWheel s fun t =>
      t = { s with
        demand := { s.demand with wheel := t.demand.wheel, life := some (s.clock + 2000000), expired := false }
        align := { s.align with steer := t.demand.wheel.steer }
        depth := Governed s.depth { s.depth.reasons with wheel := false }
        links := t.links }
      ∧ Stored (wheelRange s.demand.tuning.dMax) es s.demand.wheel.values t.demand.wheel.values
      ∧ Raised (holdChange s t) s t
      ∧ Answered .cab f { outcome := .done, clamped := anyClamped (wheelRange s.demand.tuning.dMax) es }
          s.links.cab.mask false s t)
  ∧ (∀ (s : State) (f : Frame), Granted 0x21 .cab f s → f.payload = [] →
      let u := { s with
        demand := { s.demand with life := some (s.clock + 2000000), expired := false }
        depth := Governed s.depth { s.depth.reasons with wheel := false } }
      Serves .keepWheel .cab f { outcome := .done } (holdChange s u) s u)
  ∧ ∀ (s : State) (due : Nat), s.resetLine = false → s.demand.life = some due →
      let u := { s with
        clock := max s.clock due
        demand := { s.demand with life := none, expired := true }
        depth := Governed s.depth { s.depth.reasons with wheel := true } }
      Happens .wheelDemandExpiry (.wheelExpired :: holdChange s u) s u

/-- SET FEED, SET TUNING and, from the owner's link, SET PUMP store each named field, clamped to its range, and no
other; the reply carries CLAMPED when a clamp changed a value. SET TUNING also clamps the applied differential to the
Dmax now in force. -/
def Obligations.GroupWritesStoreNamedFields : Prop :=
  ∀ (s : State) (l : Link) (f : Frame) (es : List (Nat × Int)), f.payload = groupPayload es →
    (Granted 0x22 .cab f s → l = .cab → EntriesOk 5 es → Completes .setFeed s fun t =>
      t = { s with demand := { s.demand with feed := t.demand.feed }, links := t.links }
      ∧ Stored feedRange es s.demand.feed.values t.demand.feed.values ∧ Raised [] s t
      ∧ Answered l f { outcome := .done, clamped := anyClamped feedRange es } (s.link l).mask false s t)
    ∧ (Granted 0x23 .cab f s → l = .cab → EntriesOk 28 es → 0 ≤ s.demand.tuning.dMax →
        Completes .setTuning s fun t =>
          t = { s with
            demand := { s.demand with tuning := t.demand.tuning }
            align := { s.align with diff := max (-t.demand.tuning.dMax) (min t.demand.tuning.dMax s.align.diff) }
            links := t.links }
          ∧ Stored tuningRange es s.demand.tuning.values t.demand.tuning.values ∧ Raised [] s t
          ∧ Answered l f { outcome := .done, clamped := anyClamped tuningRange es } (s.link l).mask false s t)
    ∧ (Granted 0x31 l f s → barred s.demand.owner l .pumpOwner = none → EntriesOk 14 es →
        Completes .setPump s fun t =>
          t = { s with demand := { s.demand with pump := t.demand.pump }, links := t.links }
          ∧ Stored pumpRange es s.demand.pump.values t.demand.pump.values ∧ Raised [] s t
          ∧ Answered l f { outcome := .done, clamped := anyClamped pumpRange es } (s.link l).mask false s t)

/-- A group write whose length is not 1 + 5k is refused BAD_LENGTH; one with no entry, more entries than the group has
fields, a field number of no field or one field twice is refused BAD_VALUE, and so is a SET WHEEL with a direction or
steer mode that is neither 0 nor 1. Nothing else changes. -/
def Obligations.BadGroupWritesAreRefused : Prop :=
  ∀ (c : Instr) (kind : Byte) (acc : Access) (n : Nat) (s : State) (l : Link) (f : Frame),
    requestRow c = some (kind, acc) → groupFields c = some n → Granted kind l f s →
    barred s.demand.owner l acc = none →
    let k := (f.payload.headD 0).toNat
    let numbers := (List.range k).map fun i => (f.payload.getD (1 + 5 * i) 0).toNat
    (f.payload.length ≠ 1 + 5 * k → Refuses c l f .badLength [] s)
    ∧ (f.payload.length = 1 + 5 * k → k = 0 ∨ n < k ∨ (∃ m ∈ numbers, m = 0 ∨ n < m) ∨ ¬numbers.Nodup →
        Refuses c l f .badValue [] s)
    ∧ (∀ es, c = .setWheel → f.payload = groupPayload es → EntriesOk 10 es →
        (∃ e ∈ es, (e.1 = 2 ∨ e.1 = 3) ∧ e.2 ≠ 0 ∧ e.2 ≠ 1) → Refuses c l f .badValue [] s)

/-- TAKE PUMP, a Cab request, gives the PUMP group to Cab when Plant has released it or is SILENT; RECLAIM PUMP, a
Plant request, gives it to Plant when Cab has released it or is SILENT; each clears both marks and raises OWNER_CHANGE.
Otherwise they are refused NOT_RELEASED; from the owner itself they only clear its mark. From another link they are
refused NOT_PERMITTED, with a payload BAD_LENGTH. RELEASE PUMP sets the owner's mark. -/
def Obligations.PumpGroupChangesHands : Prop :=
  ∀ (s : State) (l : Link) (f : Frame),
    let cleared (o : Owner) : State :=
      { s with demand := { s.demand with owner := o, releasedPlant := false, releasedCab := false } }
    (Granted 0x27 l f s →
      (l ≠ .cab → Refuses .takePump l f .notPermitted [] s)
      ∧ (l = .cab → f.payload ≠ [] → Refuses .takePump l f .badLength [] s)
      ∧ (l = .cab → f.payload = [] →
        (s.demand.owner = .cab → Serves .takePump .cab f { outcome := .done } [] s
          { s with demand := { s.demand with releasedCab := false } })
        ∧ (s.demand.owner = .plant → s.demand.releasedPlant = true ∨ s.links.plant.silent = true →
            Serves .takePump .cab f { outcome := .done } [.ownerChange] s (cleared .cab))
        ∧ (s.demand.owner = .plant → s.demand.releasedPlant = false → s.links.plant.silent = false →
            Refuses .takePump .cab f .notReleased [] s)))
    ∧ (Granted 0x30 l f s →
      (l ≠ .plant → Refuses .reclaimPump l f .notPermitted [] s)
      ∧ (l = .plant → f.payload ≠ [] → Refuses .reclaimPump l f .badLength [] s)
      ∧ (l = .plant → f.payload = [] →
        (s.demand.owner = .plant → Serves .reclaimPump .plant f { outcome := .done } [] s
          { s with demand := { s.demand with releasedPlant := false } })
        ∧ (s.demand.owner = .cab → s.demand.releasedCab = true ∨ s.links.cab.silent = true →
            Serves .reclaimPump .plant f { outcome := .done } [.ownerChange] s (cleared .plant))
        ∧ (s.demand.owner = .cab → s.demand.releasedCab = false → s.links.cab.silent = false →
            Refuses .reclaimPump .plant f .notReleased [] s)))
    ∧ (Granted 0x33 l f s → barred s.demand.owner l .pumpOwner = none → f.payload = [] →
        Serves .releasePump l f { outcome := .done } [] s
          (match s.demand.owner with
            | .plant => { s with demand := { s.demand with releasedPlant := true } }
            | .cab => { s with demand := { s.demand with releasedCab := true } }))

/-! ## Acquisition and its scans (02_acquisition_unit.md) -/

/-- SET ACQUISITION: a payload of a length other than 5 + k is refused BAD_LENGTH; no channel or more than sixteen, a
channel code above 12, a mode above 2 or a restart choice above 1 is refused BAD_VALUE. Otherwise the list, the mode
and the clamped period are pending; a restart choice of 1 takes the new period at once and reloads the running timer;
OFF in WAITING stops the unit at once and holds the feed; TIMED or FREE in OFF starts a settling scan. The model's
choice or reading in it: log entries 20 and 35. -/
def Obligations.SetAcquisitionTakesListPeriodAndMode : Prop :=
  ∀ (s : State) (f : Frame), Granted 0x24 .cab f s →
    (f.payload.length < 5 ∨ f.payload.length ≠ 5 + (f.payload.headD 0).toNat →
      Refuses .setAcquisition .cab f .badLength [] s)
    ∧ ∀ (k : Byte) (codes : List Byte) (p1 p2 m r : Byte), f.payload = k :: codes ++ [p1, p2, m, r] →
      codes.length = k.toNat →
      (k = 0 ∨ 16 < k.toNat ∨ (∃ c ∈ codes, 12 < c.toNat) ∨ 2 < m.toNat ∨ 1 < r.toNat →
        Refuses .setAcquisition .cab f .badValue [] s)
      ∧ ∀ (list : List Channel) (mode : AcqMode), 1 ≤ k.toNat → k.toNat ≤ 16 → r.toNat ≤ 1 →
        list.map Channel.code = codes.map BitVec.toNat → mode.code = m.toNat →
        (s.acq.state = .off → s.acq.scanTimer = none) →
        let np := max 10 (min 1000 (two p1 p2))
        let pending := { s.acq with
          pendingList := list, pendingMode := mode, newPeriod := np
          period := if r = 1 then np else s.acq.period
          scanTimer := if r = 1 then s.acq.scanTimer.map (fun _ => s.clock + np.toNat * 1000) else s.acq.scanTimer }
        let u :=
          if s.acq.state = .waiting ∧ mode = .off then
            { s with
              acq := { pending with
                activeList := list, activeMode := mode, state := .off, scanTimer := none, conversion := none
                results := [] }
              depth := Governed s.depth { s.depth.reasons with acqOff := true } }
          else if s.acq.state = .off ∧ mode ≠ .off then
            { s with
              acq := { pending with
                activeList := list, activeMode := mode, state := .settling, results := []
                conversion := some (s.clock + 20000)
                scanTimer := if mode = .timed then some (s.clock + pending.period.toNat * 1000) else none }
              depth := Governed s.depth { s.depth.reasons with acqOff := false } }
          else { s with acq := pending }
        Serves .setAcquisition .cab f { outcome := .done, clamped := decide (np ≠ two p1 p2) } (holdChange s u) s u

/-- The scan timer takes the new period and reloads at its expiry; in SCANNING and SETTLING SCAN_OVERRUN is raised; in
WAITING the pending list and mode are adopted, and a scan starts, with the timer stopped in FREE, or the unit goes OFF
and the feed is held. The model's choice or reading in it: log entries 7 and 19. -/
def Obligations.ScanTimerStartsAScan : Prop :=
  ∀ (s : State) (due : Nat), s.resetLine = false → s.acq.scanTimer = some due →
    let at_ := max s.clock due
    let loaded := { s.acq with
      period := s.acq.newPeriod, scanTimer := some (at_ + s.acq.newPeriod.toNat * 1000) }
    let adopted := { loaded with activeList := s.acq.pendingList, activeMode := s.acq.pendingMode, results := [] }
    let now := { s with clock := at_ }
    (s.acq.state = .scanning ∨ s.acq.state = .settling →
      Happens .scanTimerExpiry [.scanOverrun] s { now with acq := loaded })
    ∧ (s.acq.state = .waiting → s.acq.pendingMode ≠ .off → Happens .scanTimerExpiry [] s { now with
        acq := { adopted with
          state := .scanning, conversion := some (at_ + 2000)
          scanTimer := if s.acq.pendingMode = .free then none else loaded.scanTimer } })
    ∧ (s.acq.state = .waiting → s.acq.pendingMode = .off →
        let u := { now with
          acq := { adopted with state := .off, conversion := none, scanTimer := none }
          depth := Governed s.depth { s.depth.reasons with acqOff := true } }
        Happens .scanTimerExpiry (holdChange s u) s u)

/-- A conversion clamps the reading to its channel's range, corrects IX, IY and TW by the zero value and clamps again,
and marks a value at a limit SATURATED. Before the list's last entry the next conversion ends 2 ms later. A ZR
conversion of a scan within ±64 gives the zero value, and one beyond raises SENSOR_FAULT; in a settling scan it does
neither. The last conversion of a settling scan publishes nothing. The model's choice or reading in it: log entry 7.
-/
def Obligations.ConversionsFillTheScan : Prop :=
  ∀ (s : State) (due : Nat) (c : Channel) (raw : Int), s.resetLine = false → s.acq.conversion = some due →
    s.acq.activeList[s.acq.results.length]? = some c → s.acq.state = .scanning ∨ s.acq.state = .settling →
    let bipolar := c ∈ [.zr, .ix, .iy, .tw]
    let low : Int := if bipolar then -2048 else 0
    let high : Int := if bipolar then 2047 else 4095
    let reading := max low (min high raw)
    let checked := c = .zr ∧ s.acq.state = .scanning
    let corrected := if c ∈ [.ix, .iy, .tw] then max low (min high (reading - s.acq.zero)) else reading
    let mark := decide (reading = low ∨ reading = high ∨ corrected = low ∨ corrected = high)
    let got := s.acq.results ++ [{ channel := c, result := { value := corrected, saturated := mark } }]
    let now := { s with clock := max s.clock due }
    (s.acq.results.length + 1 < s.acq.activeList.length →
      Happens (.conversionCompletion raw) (if checked ∧ 64 < |reading| then [.sensorFault] else []) s { now with
        acq := { s.acq with
          results := got
          conversion := some (max s.clock due + 2000)
          zero := if checked ∧ |reading| ≤ 64 then reading else s.acq.zero } })
    ∧ (s.acq.results.length + 1 = s.acq.activeList.length → s.acq.state = .settling →
        let u := { now with
          acq := nextScan (max s.clock due) s.acq
          depth := if s.acq.pendingMode = .off then Governed s.depth { s.depth.reasons with acqOff := true }
            else s.depth }
        Happens (.conversionCompletion raw) (holdChange s u) s u)

/-- The last conversion of a scan publishes its record: the next sequence number; VALID when RF is absent or its value
lies in 2,960 … 3,040; each listed channel the mean of its conversions, rounded half away from zero, SATURATED when
one of them is, and the others absent. A valid scan zeroes the invalid count and clears FAULT; an invalid one adds 1,
and the fifth in a row raises SENSOR_FAULT, sets FAULT and holds the feed. The five consumers take a valid scan; an
invalid one changes none of them. Then the unit goes on by its mode, and OFF holds the feed. The links keep everything
but that these flags are raised: SENSOR_FAULT by a ZR reading beyond ±64 or by the fifth invalid scan, FEED_HOLD as the
line changes, TALLY_NEAR_FULL by a pressure-band tally, PLATE_FAULT by a SATURATED stroke. The model's choice or reading
in it: log entries 1 and 7. -/
def Obligations.LastConversionPublishesTheScan : Prop :=
  ∀ (s : State) (due : Nat) (c : Channel) (raw : Int), s.resetLine = false → s.acq.conversion = some due →
    s.acq.activeList[s.acq.results.length]? = some c → s.acq.state = .scanning →
    s.acq.results.length + 1 = s.acq.activeList.length →
    let now := { s with clock := max s.clock due }
    let zr := max (-2048) (min 2047 raw)
    let got := s.acq.results ++ [{ channel := c, result := convert s.acq.zero c raw }]
    let mean (own : List Conversion) (v : ScanValue) : Prop :=
      RoundsTo (own.map (·.result.value)).sum own.length v.value ∧ v.saturated = own.any (·.result.saturated)
    Completes (.conversionCompletion raw) s fun t => ∃ r : ScanRecord,
      t = { now with
        acq := { nextScan now.clock s.acq with
          latest := some r, seq := r.seq, invalidCount := t.acq.invalidCount, fault := t.acq.fault
          zero := if c = .zr ∧ |zr| ≤ 64 then zr else s.acq.zero }
        depth := { s.depth with
          reasons := { s.depth.reasons with
            acqFault := if r.valid then false else s.depth.reasons.acqFault || s.acq.invalidCount == 4
            acqOff := s.depth.reasons.acqOff || s.acq.pendingMode == .off }
          feedHold := t.depth.feedHold }
        table := t.table, align := t.align, drives := t.drives, plates := t.plates, ret := t.ret
        links := t.links, draws := t.draws }
      ∧ r.seq = (s.acq.seq + 1) % 65536 ∧ r.entries.length = 13
      ∧ (∀ ch : Channel, let own := got.filter fun x => x.channel = ch
          (own = [] → entryOf r ch.code = none) ∧ (own ≠ [] → ∃ v, entryOf r ch.code = some v ∧ mean own v))
      ∧ (r.valid = true ↔ ∀ v, entryOf r 0 = some v → 2960 ≤ v.value ∧ v.value ≤ 3040)
      ∧ (r.valid = true → t.acq.invalidCount = 0 ∧ t.acq.fault = false)
      ∧ (r.valid = false →
          t.acq.invalidCount = (if s.acq.invalidCount < 5 then s.acq.invalidCount + 1 else s.acq.invalidCount)
          ∧ t.acq.fault = (s.acq.fault || s.acq.invalidCount == 4)
          ∧ (s.acq.invalidCount = 4 → ∀ l, ((t.link l).flags).has .sensorFault = true)
          ∧ t.table = s.table ∧ t.align = s.align ∧ t.drives = s.drives ∧ t.plates = s.plates ∧ t.ret = s.ret)
      ∧ (r.valid = true →
          t.table = (stationScan r s).table ∧ t.align = evaluateAlign r s
          ∧ t.drives = (driveScan r now).drives ∧ t.ret = (returnScan r now).ret
          ∧ (t.plates = (plateScan r now).plates ∨ t.plates = (plateScan r { now with align := t.align }).plates))
      ∧ (LineLaw s →
          let judged := Governed s.depth { s.depth.reasons with
            acqFault := if r.valid then false else s.depth.reasons.acqFault || s.acq.invalidCount == 4 }
          LineLaw t ∧ ∃ tally jam : Bool, (tally = true ↔ r.valid = true ∧ TallyNoticed s r)
            ∧ (jam = true ↔ r.valid = true ∧ ∃ i, Jams s r i)
            ∧ LinksKept ((if c = .zr ∧ 64 < |zr| then [.sensorFault] else [])
                ++ (if r.valid = false ∧ s.acq.invalidCount = 4 then [.sensorFault] else [])
                ++ (if s.depth.feedHold = judged.feedHold ∧ judged.feedHold = t.depth.feedHold then [] else [.feedHold])
                ++ noticeFlags tally ++ (if jam then [.plateFault] else [])) s t)

/-- What a valid scan does to its consumers but for the alignment and the plates. With inclinations and twist present,
the Station Table keeps them and, in an ACTIVE panel whose depth is referenced, adds them to the accumulator, halving
at 4,096 samples; with one of them absent it takes nothing. Each wheel drive with its pressure clean watches for a
stall, judges the loaded condition and tallies the band, and TALLY_NEAR_FULL is raised as a tally comes to its notice;
with its pressure absent or SATURATED a watched drive stays as it is, and the confirm timer of another is stopped. The
Return Balance Unit watches the suction and discharge pressures for a blockage, or for its end; with one of them absent
or SATURATED it stays as it is. That a drive is watched by the direction status it holds, whatever WHEEL direction was
written since its last event, is the model's choice: log entry 14. -/
def Obligations.ScanConsumersTakeTheScan : Prop :=
  ∀ (s : State) (r : ScanRecord), r.valid = true →
    (∀ ix iy tw, entryOf r 2 = some ix → entryOf r 3 = some iy → entryOf r 4 = some tw →
      let a := s.table.acc
      let seen := a.clampedSeen || ix.saturated || iy.saturated || tw.saturated
      let x := a.sumX + ix.value
      let y := a.sumY + iy.value
      let w := a.sumT + tw.value
      stationScan r s = { s with
        table := { s.table with
          lastIncl := some { ix := ix, iy := iy, tw := tw }
          acc :=
            if s.panel ≠ .active ∨ s.depth.ref = .unreferenced then a
            else if a.count + 1 = 4096 then
              { sumX := x.tdiv 2, sumY := y.tdiv 2, sumT := w.tdiv 2, count := 2048, clampedSeen := seen }
            else { sumX := x, sumY := y, sumT := w, count := a.count + 1, clampedSeen := seen } } })
    ∧ (entryOf r 2 = none ∨ entryOf r 3 = none ∨ entryOf r 4 = none → stationScan r s = s)
    ∧ (∀ (w : WheelId) (v : ScanValue), entryOf r (pressureCode w) = some v → v.saturated = false → CounterLaw s →
        ∀ k, InBand ((v.value * 100).tdiv 4095) k →
        let d := s.wheel w
        let d' := (driveScan r s).wheel w
        let p := s.demand.tuning
        d' = { d with confirm := d'.confirm, loaded := decide (p.stallPressure ≤ v.value * 10), bands := d'.bands }
        ∧ (¬Watched d → d'.confirm = none)
        ∧ (Watched d → Watch (p.stallPressure ≤ v.value * 10 ∧ d.motor.speed < p.stallSpeed
            ∧ p.stallSpeed ≤ d.motor.working) d.confirm d'.confirm (s.clock + p.confirmTime.toNat * 1000))
        ∧ d'.bands = (if s.panel = .active then d.bands.modify k tickOf else d.bands))
    ∧ (∀ w : WheelId, (∀ v, entryOf r (pressureCode w) = some v → v.saturated = true) →
        (Watched (s.wheel w) → (driveScan r s).wheel w = s.wheel w)
        ∧ (¬Watched (s.wheel w) → (driveScan r s).wheel w = { s.wheel w with confirm := none }))
    ∧ (∃ tally : Bool, (tally = true ↔ TallyNoticed s r) ∧ LinksKept (noticeFlags tally) s (driveScan r s)
        ∧ driveScan r s = { s with
            drives := { s.drives with a := (driveScan r s).drives.a, b := (driveScan r s).drives.b }
            links := (driveScan r s).links })
    ∧ (∀ ps pd, entryOf r 7 = some ps → ps.saturated = false → entryOf r 8 = some pd → pd.saturated = false →
        let p := s.demand.pump
        let t := returnScan r s
        t = { s with ret := { s.ret with confirm := t.ret.confirm, recovery := t.ret.recovery } }
        ∧ (s.ret.state = .stopped → t = s)
        ∧ (s.ret.state ≠ .stopped → s.ret.state ≠ .blocked → t.ret.recovery = s.ret.recovery
            ∧ Watch (ps.value < p.psBlock ∨ p.pdBlock < pd.value) s.ret.confirm t.ret.confirm
              (s.clock + p.confirmTime.toNat * 1000))
        ∧ (s.ret.state = .blocked → t.ret.confirm = s.ret.confirm
            ∧ Watch (p.psBlock + p.psHysteresis ≤ ps.value ∧ pd.value ≤ p.pdBlock - p.pdHysteresis) s.ret.recovery
              t.ret.recovery (s.clock + p.recoveryTime.toNat * 1000)))
    ∧ ((∀ ps, entryOf r 7 = some ps → ps.saturated = true) ∨ (∀ pd, entryOf r 8 = some pd → pd.saturated = true) →
        returnScan r s = s)

/-! ## Alignment and plates (05_alignment_computation.md, 07_steering_plates.md) -/

/-- The evaluation of a valid scan, by the first condition that holds: the panel not ACTIVE clears the outputs; MANUAL
steps toward the manual demands; an UNREFERENCED depth, a reference that is not current, an absent input and a
SATURATED input each hold the outputs with their cause; otherwise predicted offsets, errors, demands and stage record
are those of the computation, the differential steps by at most the rate, and the plates take the mixed demands. -/
def Obligations.AlignmentEvaluatesInOrder : Prop :=
  ∀ (s : State) (r : ScanRecord), GeometryLaw s → TableLaw s → DemandLaw s →
    let a := s.align
    let u := evaluateAlign r s
    let p := s.demand.tuning
    let holds (cause : HoldCause) : Prop := u = { a with status := .holding, cause := cause }
    (s.panel ≠ .active → u = { a with
      diff := 0, demands := { af := 0, ar := 0, bf := 0, br := 0 }, status := .inactive, cause := .none })
    ∧ (s.panel = .active → a.steer = .manual →
        let m := s.demand.wheel.manual
        u = { a with
          diff := u.diff, status := .tracking, cause := .none
          demands := { af := percent m.af, ar := percent m.ar, bf := percent m.bf, br := percent m.br } }
        ∧ StepTo a.diff (max (-p.dMax) (min p.dMax s.demand.wheel.manualDiff)) p.rStep u.diff)
    ∧ (s.panel = .active → a.steer = .auto →
      (s.depth.ref = .unreferenced → holds .unreferenced)
      ∧ (s.depth.ref ≠ .unreferenced →
        ((∀ depth x y, ¬HasReference s depth x y) → holds .notCurrent)
        ∧ ∀ depth x y, HasReference s depth x y →
          (entryOf r 2 = none ∨ entryOf r 3 = none ∨ entryOf r 4 = none → holds .inputAbsent)
          ∧ ∀ ix iy tw, entryOf r 2 = some ix → entryOf r 3 = some iy → entryOf r 4 = some tw →
            (ix.saturated = true ∨ iy.saturated = true ∨ tw.saturated = true → holds .inputSaturated)
            ∧ (ix.saturated = false → iy.saturated = false → tw.saturated = false → ∃ g : StageRecord,
                u = { a with diff := u.diff, demands := u.demands, status := .tracking, cause := .none
                             stage := some g }
                ∧ g.seq = r.seq ∧ g.tw = tw.value
                ∧ g.delta = max 0 (min s.geometry.spacing
                    ((s.depth.count * s.geometry.encoderStep - depth * 1000).tdiv 1000))
                ∧ g.px = x + ix.value * 25 * (g.delta + p.lookAhead)
                ∧ g.py = y + iy.value * 25 * (g.delta + p.lookAhead)
                ∧ RoundsTo (g.px - s.demand.wheel.targetX * 1000000) 1000 g.ex
                ∧ RoundsTo (g.py - s.demand.wheel.targetY * 1000000) 1000 g.ey
                ∧ RawAgrees p g.ex g.raw ∧ GainedDemand g.ey p.dbY p.gY 1000 p.yMax g.yDem
                ∧ GainedDemand tw.value p.dbT p.gT 10 p.tMax g.tDem
                ∧ StepTo a.diff g.raw p.rStep u.diff
                ∧ u.demands =
                    { af := percent (p.baseStroke + g.yDem + g.tDem), bf := percent (p.baseStroke + g.yDem - g.tDem)
                      ar := percent (p.baseStroke - g.yDem - g.tDem)
                      br := percent (p.baseStroke - g.yDem + g.tDem) })))

/-- The Plate Drive takes a valid scan: the retract-all override is judged from the panel, the feed and the return
state; each plate not in FAULT with its stroke present is judged against its demand, 0 under the override, or enters
FAULT when the stroke is SATURATED; the others stay. An invalid scan changes nothing. -/
def Obligations.PlatesAreJudgedAtScans : Prop :=
  ∀ (s : State) (r : ScanRecord), DemandLaw s →
    let t := plateScan r s
    (r.valid = false → t = s)
    ∧ (r.valid = true →
      let override : Override :=
        { panel := decide (s.panel ≠ .active)
          lift := decide (s.depth.lastFeed < -s.demand.feed.liftThreshold)
          blocked := decide (s.ret.state = .blocked) }
      let jams (i : PlateId) : Prop := Jams s r i
      t = { s with
        plates := { af := t.plate .af, ar := t.plate .ar, bf := t.plate .bf, br := t.plate .br, override := override }
        links := t.links }
      ∧ ((∃ i, jams i) → LinksKept [.plateFault] s t) ∧ ((∀ i, ¬jams i) → t.links = s.links)
      ∧ ∀ i, ((s.plate i).state = .fault ∨ entryOf r (strokeCode i) = none → t.plate i = s.plate i)
        ∧ (jams i → t.plate i = faulted (s.plate i))
        ∧ ∀ v, (s.plate i).state ≠ .fault → entryOf r (strokeCode i) = some v → v.saturated = false →
            Judged s.demand.tuning.plateBand ((v.value * 100 + 2047).tdiv 4095)
              (if override.panel || override.lift || override.blocked then 0 else s.align.demands.of i)
              (s.clock + s.demand.tuning.travelTime.toNat * 1000) (s.plate i) (t.plate i)
            ∧ (PlateOutputs (s.plate i) → 0 ≤ s.align.demands.of i → s.align.demands.of i ≤ 100 →
                PlateOutputs (t.plate i)))

/-- A travel timer that runs out puts its plate into FAULT and raises PLATE_FAULT. CLEAR PLATE FAULT puts the plates
it names that are in FAULT into HOLD; with none of them in FAULT it is refused WRONG_STATE, and with a code above 4
BAD_VALUE. The model's choice or reading in it: log entry 7. -/
def Obligations.PlatesFaultAndAreCleared : Prop :=
  (∀ (s : State) (i : PlateId) (due : Nat), s.resetLine = false → (s.plate i).travel = some due →
    Happens (.travelTimerExpiry i) [.plateFault] s
      (State.setPlate { s with clock := max s.clock due } i (faulted (s.plate i))))
  ∧ ∀ (s : State) (f : Frame) (b : Byte), Granted 0x26 .cab f s → f.payload = [b] →
      let named : PlateId → Prop := fun i => b.toNat = 4 ∨ b.toNat = plateCode i
      (4 < b.toNat → Refuses .clearPlateFault .cab f .badValue [] s)
      ∧ (b.toNat ≤ 4 → (∀ i, named i → (s.plate i).state ≠ .fault) →
          Refuses .clearPlateFault .cab f .wrongState [] s)
      ∧ (b.toNat ≤ 4 → (∃ i, named i ∧ (s.plate i).state = .fault) → Completes .clearPlateFault s fun t =>
          t = { s with
            plates := { af := t.plate .af, ar := t.plate .ar, bf := t.plate .bf, br := t.plate .br
                        override := s.plates.override }
            links := t.links }
          ∧ (∀ i, (named i ∧ (s.plate i).state = .fault → t.plate i = { s.plate i with
                state := .hold, extend := false, retract := false, travel := none })
              ∧ (¬(named i ∧ (s.plate i).state = .fault) → t.plate i = s.plate i))
          ∧ Raised [] s t ∧ Answered .cab f { outcome := .done } s.links.cab.mask false s t)

/-! ## Drives (06_drive_channels.md) -/

/-- A pickup edge less than 200 µs after the last accepted one is ignored; any other is accepted: it gives the speed
600,000,000 / (period × pulses), truncated and clamped, or 0 after a silence, restarts the pickup timeout, and in an
ACTIVE panel adds 1 to the revolution counter. The pickup timeout makes the speed 0. The loaded-time timer adds 1 for
each loaded wheel drive in an ACTIVE panel. The model's choice or reading in it: log entries 7 and 33, and 37 for the first edge
after COLD. -/
def Obligations.PickupsAndLoadedTimeCount : Prop :=
  (∀ (s : State) (d : DriveId) (elapsed : Nat), s.resetLine = false → CounterLaw s →
    let now := s.clock + elapsed
    let m := s.motor d
    let period := m.lastEdge.map fun e => min (now - e) 16777215
    let ppr := match d with
      | .p => s.geometry.pprPump
      | .a => s.geometry.pprWheel
      | .b => s.geometry.pprWheel
    ((∃ p, period = some p ∧ p < 200) → exec (.pickupEdge d elapsed) s = .next { s with clock := now })
    ∧ ((∀ p, period = some p → 200 ≤ p) →
        Happens (.pickupEdge d elapsed) (noticeFlags (decide (s.panel = .active) && notices m.rev)) s
          (State.setMotor { s with clock := now } d { m with
            speed := match period with
              | none => 0
              | some p => if m.noSpeed = true ∨ p = 16777215 then 0
                else max 0 (min 65535 ((600000000 : Int).tdiv (p * ppr)))
            lastEdge := some now
            noSpeed := false
            pickupTimer := some (now + s.demand.tuning.pickupTimeout.toNat * 1000)
            rev := if s.panel = .active then tickOf m.rev else m.rev })))
  ∧ (∀ (s : State) (d : DriveId) (due : Nat), s.resetLine = false → (s.motor d).pickupTimer = some due →
      exec (.pickupTimeout d) s = .next (State.setMotor { s with clock := max s.clock due } d
        { s.motor d with speed := 0, noSpeed := true, pickupTimer := none }))
  ∧ ∀ (s : State) (due : Nat), s.resetLine = false → CounterLaw s → s.drives.loadedTimer = some due →
      let counts : WheelDrive → Bool := fun d => d.loaded && decide (s.panel = .active)
      let after : WheelDrive → WheelDrive := fun d =>
        if counts d then { d with loadedTime := tickOf d.loadedTime } else d
      Happens .loadedTimeExpiry
        (noticeFlags ((counts s.drives.a && notices s.drives.a.loadedTime)
          || (counts s.drives.b && notices s.drives.b.loadedTime))) s
        { s with
          clock := max s.clock due
          drives := { s.drives with
            a := after s.drives.a, b := after s.drives.b, loadedTimer := some (max s.clock due + 100000) } }

/-- READ TALLIES, from any link, answers with the seventeen counters, their near-full marks and the panel identifier,
as they stand. CLEAR TALLIES, from the Record link only, zeroes the counters and clears their marks, and is refused
BUSY while the panel is CLOSING. A payload that is not empty is refused BAD_LENGTH. -/
def Obligations.TalliesAreReadAndCleared : Prop :=
  ∀ (s : State) (l : Link) (f : Frame),
    (Granted 0x45 l f s →
      (f.payload ≠ [] → Refuses .readTallies l f .badLength [] s)
      ∧ (f.payload = [] → Serves .readTallies l f
          { outcome := .done, payload := laid (countersLayout s ++ [(4, s.geometry.panelId)]) } [] s s))
    ∧ (Granted 0x54 l f s →
      (l ≠ .record → Refuses .clearTallies l f .notPermitted [] s)
      ∧ (l = .record → f.payload ≠ [] → Refuses .clearTallies l f .badLength [] s)
      ∧ (l = .record → f.payload = [] → s.panel = .closing → Refuses .clearTallies l f .busy [] s)
      ∧ (l = .record → f.payload = [] → s.panel ≠ .closing → Serves .clearTallies l f { outcome := .done } [] s
          { s with drives := TalliesZeroed s.drives }))

/-- A loop pass of a wheel drive, in its stages: the target from the base speed in force and the differential; the
state; the direction status; the ramp, toward 0 while the direction is CHANGING; the duty, 0 with the valve held
closed; and the flip of the direction once the drive stands still with its valve closed, which in STALL_REVERSE starts
the reverse timer. The feed governor is told whether the drive is RUNNING and FORWARD. The model's choice or reading
in it: log entries 7, 14 and 15. -/
def Obligations.WheelLoopPassGoesThroughItsStages : Prop :=
  ∀ (s : State) (w : WheelId) (due : Nat), s.resetLine = false → (s.wheel w).motor.loopTimer = some due →
    |s.align.diff| ≤ 200 → Completes (.loopTimerExpiry (match w with
      | .a => .a
      | .b => .b)) s fun t =>
      let p := s.demand.tuning
      let d := s.wheel w
      let d' := t.wheel w
      let m := d.motor
      let m' := d'.motor
      let e := baseSpeedFor s w
      let rest := m'.target = 0 ∧ m.working = 0 ∧ m.speed < 10
      let wanted := wantedIn s d'.state d.dirOut
      let status := statusFor wanted d.dirOut
      let closed := m'.working = 0 ∧
        ((d'.state = .stopped ∧ m'.target = 0) ∨ status = .changing ∨ d'.state = .lockedOut)
      let flips := status = .changing ∧ m'.working = 0 ∧ m.applied = 0 ∧ m.speed < 10
      t = { State.setWheel { s with clock := max s.clock due } w
            { d with
              motor := { m with
                target := m'.target, working := m'.working, computed := m'.computed, integ := m'.integ
                loopTimer := some (max s.clock due + p.loopPeriod.toNat * 1000) }
              state := d'.state, dirOut := d'.dirOut, dirStatus := d'.dirStatus, confirm := d'.confirm
              reverseTimer := d'.reverseTimer } with
          depth := Governed s.depth
            (driveReason w (decide (¬(d'.state = .running ∧ d'.dirStatus = .forward))) s.depth.reasons)
          links := t.links }
      ∧ LinksKept (holdChange s t) s t
      ∧ (d.state = .lockedOut → m'.target = 0)
      ∧ (d.state = .stallReverse → m'.target = if 0 < e then p.reverseSpeed else 0)
      ∧ (d.state ≠ .lockedOut → d.state ≠ .stallReverse → TargetFrom w e s.align.diff m'.target)
      ∧ (d.state = .stopped → d'.state = if 0 < m'.target then .running else .stopped)
      ∧ (d.state = .running → (rest → d'.state = .stopped) ∧ (¬rest → d'.state = .running))
      ∧ (d.state = .stallResume →
          (d.dirStatus = .forward → p.stallSpeed ≤ m.speed → d'.state = .running)
          ∧ (d.dirStatus = .forward → m.speed < p.stallSpeed → rest → d'.state = .stopped)
          ∧ (d.dirStatus = .forward → m.speed < p.stallSpeed → ¬rest → d'.state = .stallResume)
          ∧ (d.dirStatus ≠ .forward → d'.state = .stallResume))
      ∧ (d.state = .stallReverse ∨ d.state = .lockedOut → d'.state = d.state)
      ∧ StepTo m.working (if status = .changing then 0 else m'.target) p.rampStep m'.working
      ∧ (closed → m'.computed = 0 ∧ m'.integ = 0)
      ∧ (¬closed → DutyAgrees p ((m'.working * p.kf).tdiv 100) m m')
      ∧ (flips → d'.dirOut = wanted ∧ d'.dirStatus = plainStatus wanted
          ∧ d'.reverseTimer = if d'.state = .stallReverse then some (max s.clock due + p.reverseTime.toNat * 1000)
              else d.reverseTimer)
      ∧ (¬flips → d'.dirOut = d.dirOut ∧ d'.dirStatus = status ∧ d'.reverseTimer = d.reverseTimer)
      ∧ (Watched d' → d'.confirm = d.confirm) ∧ (¬Watched d' → d'.confirm = none)

/-- A loop pass of drive P: the target is the flow by the displacement, clamped; it runs from a target above 0 and
stops at rest; ramp and duty follow; at a start a STOPPED return becomes PRIMING, and at a stop the return becomes
STOPPED, with the limit 0 and the feed held. At a PWM period start every valve output takes its computed duty. The
model's choice or reading in it: log entry 7; that the three outputs' periods start together: log entry 34. -/
def Obligations.PumpPassAndPwmPeriod : Prop :=
  (∀ (s : State) (due : Nat), s.resetLine = false → s.drives.p.motor.loopTimer = some due →
    Completes (.loopTimerExpiry .p) s fun t =>
      let p := s.demand.tuning
      let d := s.drives.p
      let d' := t.drives.p
      let m := d.motor
      let m' := d'.motor
      let rest := m'.target = 0 ∧ m.working = 0 ∧ m.speed < 10
      let closed := m'.working = 0 ∧ d'.state = .stopped ∧ m'.target = 0
      let ret :=
        if d.state = .stopped ∧ d'.state = .running ∧ s.ret.state = .stopped then
          { s.ret with state := .priming, limit := 0 }
        else if d.state = .running ∧ d'.state = .stopped ∧ s.ret.state ≠ .stopped then
          { s.ret with state := .stopped, limit := 0, confirm := none, recovery := none }
        else s.ret
      t = { s with
        clock := max s.clock due
        drives := { s.drives with p := { d' with motor := { m with
          target := m'.target, working := m'.working, computed := m'.computed, integ := m'.integ
          loopTimer := some (max s.clock due + p.loopPeriod.toNat * 1000) } } }
        ret := ret
        depth := afterReturn s.depth s.ret.state ret.state
        links := t.links }
      ∧ LinksKept (returnChange s t ++ holdChange s t) s t
      ∧ m'.target = max 0 (min 15000 ((s.demand.pump.flow * 1000).tdiv s.geometry.displacement))
      ∧ (d.state = .stopped → d'.state = if 0 < m'.target then .running else .stopped)
      ∧ (d.state = .running → (rest → d'.state = .stopped) ∧ (¬rest → d'.state = .running))
      ∧ StepTo m.working m'.target p.rampStep m'.working
      ∧ (closed → m'.computed = 0 ∧ m'.integ = 0)
      ∧ (¬closed → DutyAgrees p ((m'.working * 1000).tdiv 15000) m m'))
  ∧ ∀ (s : State) (due : Nat), s.resetLine = false → s.drives.pwmTimer = some due →
      exec .pwmPeriodStart s = .next { s with
        clock := max s.clock due
        drives := { s.drives with
          a := { s.drives.a with motor := { s.drives.a.motor with applied := s.drives.a.motor.computed } }
          b := { s.drives.b with motor := { s.drives.b.motor with applied := s.drives.b.motor.computed } }
          p := { s.drives.p with motor := { s.drives.p.motor with applied := s.drives.p.motor.computed } }
          pwmTimer := some (max s.clock due + 4000) } }

/-- A stall raises DRIVE_STALL and joins the stall list, whose entries older than the lockout window leave; with fewer
than three entries the drive enters STALL_REVERSE, with three LOCKED_OUT, which raises DRIVE_LOCKOUT. The end of the
reverse timer gives STALL_RESUME. RESTART DRIVE takes a LOCKED_OUT wheel drive to STOPPED with its list empty; any
other state is refused WRONG_STATE, and a code above 1 BAD_VALUE. The model's choice or reading in it: log entries 7,
14 and 16. -/
def Obligations.StallsReverseResumeAndLockOut : Prop :=
  (∀ (s : State) (w : WheelId) (due : Nat), s.resetLine = false →
    let now := { s with clock := max s.clock due }
    let d := s.wheel w
    let ms := max s.clock due / 1000
    let list := (d.stalls.filter fun e => decide (((ms - e : Nat) : Int) ≤ s.demand.tuning.lockoutWindow * 1000)) ++ [ms]
    let held := Governed s.depth (driveReason w true s.depth.reasons)
    (d.confirm = some due → list.length < 3 →
      let u := { State.setWheel now w { d with
        stalls := list, confirm := none, state := .stallReverse, dirStatus := statusFor .reverse d.dirOut } with
        depth := held }
      Happens (.stallConfirmExpiry w) (.driveStall :: holdChange s u) s u)
    ∧ (d.confirm = some due → 3 ≤ list.length →
        let u := { State.setWheel now w { d with
          stalls := list, confirm := none, state := .lockedOut, dirStatus := plainStatus d.dirOut
          motor := { d.motor with target := 0 } } with
          depth := held }
        Happens (.stallConfirmExpiry w) (.driveStall :: .driveLockout :: holdChange s u) s u)
    ∧ (d.reverseTimer = some due →
        let u := { State.setWheel now w { d with
          state := .stallResume, reverseTimer := none, dirStatus := statusFor .forward d.dirOut
          confirm := if d.dirOut = .forward then d.confirm else none } with
          depth := held }
        Happens (.reverseTimerExpiry w) (holdChange s u) s u))
  ∧ ∀ (s : State) (f : Frame) (b : Byte), Granted 0x25 .cab f s → f.payload = [b] →
      (1 < b.toNat → Refuses .restartDrive .cab f .badValue [] s)
      ∧ ∀ w : WheelId, b.toNat = (match w with
          | .a => 0
          | .b => 1) →
        ((s.wheel w).state ≠ .lockedOut → Refuses .restartDrive .cab f .wrongState [] s)
        ∧ ((s.wheel w).state = .lockedOut →
            let d := s.wheel w
            let u := { State.setWheel s w { d with
              state := .stopped, stalls := [], confirm := none
              dirStatus := statusFor s.demand.wheel.direction d.dirOut } with
              depth := Governed s.depth (driveReason w true s.depth.reasons) }
            Serves .restartDrive .cab f { outcome := .done } (holdChange s u) s u)

/-! ## Readouts (12_frame_and_record_formats.md 12.5) -/

/-- READ STATUS answers, from any link, with the fields of every section as they stand, in 192 bytes, or 219 with a
stage record, and changes nothing else. The times left are exact to less than 1 ms: how they are rounded to whole ms
is open (log entry 4). The current byte is 0 with no reference station: log entry 36. The model's choice or reading in
it: log entries 22, 23, 32 and 36. -/
def Obligations.ReadStatusReportsEverySection : Prop :=
  ∀ (s : State) (l : Link) (f : Frame), TableLaw s → Granted 0x40 l f s → f.payload = [] →
    ∃ left : Timer → Int, TimeLeft s.clock left
      ∧ Serves .readStatus l f { outcome := .done, payload := laid (statusLayout left l s) } [] s s
      ∧ (laid (statusLayout left l s)).length = if s.align.stage.isSome then 219 else 192

/-- READ SNAPSHOT, READ DEMANDS, READ FLAGS and, from the Record link, ARCHIVE STATUS answer with their fields as they
stand and change nothing else; without a published scan READ SNAPSHOT answers NO_DATA with the programming section.
The life time left is exact to less than 1 ms (log entry 4). The model's choice or reading in it: log entry 22. -/
def Obligations.ReadoutsReportTheirFields : Prop :=
  ∀ (s : State) (l : Link) (f : Frame), f.payload = [] →
    (Granted 0x41 l f s →
      (s.acq.latest = none → Serves .readSnapshot l f
        { outcome := .noData, payload := laid (programmingLayout s.acq) } [] s s)
      ∧ ∀ r, s.acq.latest = some r → Serves .readSnapshot l f
        { outcome := .done, payload := laid (programmingLayout s.acq ++ recordLayout r) } [] s s)
    ∧ (Granted 0x44 l f s → ∃ left : Timer → Int, TimeLeft s.clock left ∧ Serves .readDemands l f
        { outcome := .done, payload := laid (demandsLayout left s.demand) } [] s s)
    ∧ (Granted 0x46 l f s → Serves .readFlags l f
        { outcome := .done, payload := laid [(3, (s.link l).flags.toNat), (3, (s.link l).mask.toNat)] } [] s s)
    ∧ (Granted 0x51 .record f s → Serves .archiveStatus .record f
        { outcome := .done, payload := laid (archiveLayout s.archive) } [] s s)

/-! ## Stations (04_station_table.md) -/

/-- READ STATIONS: a count of 0 or above 16 is refused BAD_VALUE. While the link's hold is FREE, an IDLE panel gives
NO_DATA, a range beyond the station count BAD_VALUE, and otherwise the range is cut at the end of its page: with every
present record in it SETTLED and not stale the reply is DONE with the entries, else PENDING and the hold WAITING. The
same range again gives PENDING while WAITING, READY with the buffer once PREPARED and NO_DATA once CANCELLED, freeing
the hold; another range is refused HELD_OTHER, but for a CANCELLED hold, which it frees. -/
def Obligations.ReadStationsAnswersOrHolds : Prop :=
  ∀ (s : State) (l : Link) (f : Frame) (a b c : Byte), Granted 0x42 l f s → f.payload = [a, b, c] →
    let first := a.toNat * 256 + b.toNat
    let count := c.toNat
    let range := min count (16 - first % 16)
    let freed : State := { s with table := s.table.setHold l .free }
    let pending : Answer :=
      { outcome := .pending, truncated := decide (range ≠ count), payload := laid [(2, first), (1, range)] }
    let head (n : Nat) : List Byte :=
      laid [(2, first), (1, n), (4, s.geometry.start + first * s.geometry.spacing), (2, s.geometry.spacing)]
    let settledRange : Prop := ∀ r ∈ s.table.records, first ≤ r.index → r.index < first + range →
      r.state = .settled ∧ r.stale = false
    let evaluates (u : State) : Prop :=
      (s.panel = .idle → Serves .readStations l f { outcome := .noData } [] s u)
      ∧ (s.panel ≠ .idle → s.geometry.stations < first + count →
          Serves .readStations l f { outcome := .refused, reason := .badValue } [] s u)
      ∧ (s.panel ≠ .idle → first + count ≤ s.geometry.stations → settledRange → Serves .readStations l f
          { outcome := .done, truncated := decide (range ≠ count)
            payload := head range ++ ((List.range range).map fun i => stationEntry s.table.records (first + i)).flatten }
          [] s u)
      ∧ (s.panel ≠ .idle → first + count ≤ s.geometry.stations → ¬settledRange →
          Serves .readStations l f pending [] s
            { s with table := s.table.setHold l (.waiting { first := first, count := count, range := range }) })
    (count = 0 ∨ 16 < count → Refuses .readStations l f .badValue [] s)
    ∧ (1 ≤ count → count ≤ 16 →
      (s.table.hold l = .free → evaluates s)
      ∧ (∀ q, s.table.hold l = .waiting q →
          (q = { first := first, count := count, range := range } → Serves .readStations l f pending [] s s)
          ∧ (q.first ≠ first ∨ q.count ≠ count → Refuses .readStations l f .heldOther [] s))
      ∧ (∀ q buffer, s.table.hold l = .prepared q buffer →
          (q = { first := first, count := count, range := range } → Serves .readStations l f
            { outcome := .ready, truncated := decide (range ≠ count), payload := head buffer.length ++ buffer.flatten }
            [] s freed)
          ∧ (q.first ≠ first ∨ q.count ≠ count → Refuses .readStations l f .heldOther [] s))
      ∧ (∀ i n, s.table.hold l = .cancelled i n →
          (i = first → n = count → Serves .readStations l f { outcome := .noData } [] s freed)
          ∧ (i ≠ first ∨ n ≠ count → evaluates freed)))

/-- A station entry: an absent station carries its index and zeros; a present one its record, with the offsets in
0.1 mm, rounded half away from zero and clamped. -/
def Obligations.StationEntryCarriesTheRecord : Prop :=
  ∀ (rs : List Station), rs.Pairwise (fun r q => r.index < q.index) →
    (∀ k, (∀ r ∈ rs, r.index ≠ k) → stationEntry rs k = laid [(2, k)] ++ List.replicate 22 0)
    ∧ ∀ r ∈ rs, ∀ x y, RoundsTo r.offsetX 100000 x → RoundsTo r.offsetY 100000 y →
        stationEntry rs r.index
          = laid (entryLayout r (max (-32767) (min 32767 x)) (max (-32767) (min 32767 y)))

/-- CANCEL HOLD, from any link: a payload that is not empty is refused BAD_LENGTH; it frees the sending link's hold in
any state, with its buffer, and answers DONE; a hold already FREE gives NO_DATA and nothing changes. The other links'
holds stay. -/
def Obligations.CancelHoldFreesTheHold : Prop :=
  ∀ (s : State) (l : Link) (f : Frame), Granted 0x43 l f s →
    (f.payload ≠ [] → Refuses .cancelHold l f .badLength [] s)
    ∧ (f.payload = [] → s.table.hold l = .free → Serves .cancelHold l f { outcome := .noData } [] s s)
    ∧ (f.payload = [] → s.table.hold l ≠ .free → Serves .cancelHold l f { outcome := .done } [] s
        { s with table := match l with
          | .cab => { s.table with holdCab := .free }
          | .plant => { s.table with holdPlant := .free }
          | .record => { s.table with holdRecord := .free } })

/-- A restitch step recomputes the cursor's record from its predecessor, clears its stale mark, checks the tolerance
when it is SETTLED, reviews the held queries, and moves the cursor to the next record above, or leaves the walker
IDLE. When that ends the walk stage of CLOSING, every OPEN record is settled with its tolerance check, the holds are
reviewed, and the write of page 0 starts, with the header page and the station pages as the table then stands. The
model's choice or reading in it: log entries 7 and 18. -/
def Obligations.RestitchStepRecomputesTheRecord : Prop :=
  ∀ (s : State) (w : Walker) (r : Station), s.resetLine = false → s.table.walker = some w → TableLaw s →
    r ∈ s.table.records → r.index = w.cursor →
    let redone (r' : Station) : Prop :=
      r' = { r with
        stale := false, offsetX := r'.offsetX, offsetY := r'.offsetY
        marks := { r.marks with
          gapBridged := r'.marks.gapBridged
          exceedsX := if r.state = .settled then decide (toleranceLimit s.geometry r.index < |r'.offsetX|)
            else r.marks.exceedsX
          exceedsY := if r.state = .settled then decide (toleranceLimit s.geometry r.index < |r'.offsetY|)
            else r.marks.exceedsY } }
      ∧ OffsetsAgree s.geometry s.table.records r' ∧ GapAgrees s.table.records r'
    let last : Prop := ∀ q ∈ s.table.records, q.index ≤ w.cursor
    let place (r' q : Station) : Station := if q.index = w.cursor then r' else q
    let reviewed (t : State) : Prop := ∀ l, ∃ h, Invalidated (fun q => InRange q w.cursor) (s.table.hold l) h
      ∧ Reviewed t.table.records h (t.table.hold l)
    (¬(last ∧ s.panel = .closing ∧ ∃ i, s.archive.engine = .reserved i) →
      Completes .restitchStepCompletion s fun t => ∃ r', redone r' ∧
        t = { s with
          clock := max s.clock w.due
          table := { s.table with
            records := s.table.records.map (place r'), walker := t.table.walker, summary := t.table.summary
            firstX := s.table.firstX || (decide (r.state = .settled) && r'.marks.exceedsX)
            firstY := s.table.firstY || (decide (r.state = .settled) && r'.marks.exceedsY)
            holdCab := t.table.holdCab, holdPlant := t.table.holdPlant, holdRecord := t.table.holdRecord }
          links := t.links }
        ∧ IsWalkerAbove t.table.records w.cursor (max s.clock w.due) t.table.walker
        ∧ SummaryLaw t ∧ LinksKept (toleranceChange s t) s t ∧ reviewed t)
    ∧ (∀ i, last → WalkerLaw s → s.panel = .closing → s.archive.engine = .reserved i →
        Completes .restitchStepCompletion s fun t => ∃ r', redone r' ∧
          t = { s with
            clock := max s.clock w.due
            table := { s.table with
              records := s.table.records.map fun q =>
                if (place r' q).state = .opened then SettledRecord s.geometry (place r' q) else place r' q
              walker := none, summary := t.table.summary, firstX := t.table.firstX, firstY := t.table.firstY
              holdCab := t.table.holdCab, holdPlant := t.table.holdPlant, holdRecord := t.table.holdRecord }
            archive := { s.archive with engine := .programming i 0 (panelPages t) (max s.clock w.due + 5000) }
            links := t.links }
          ∧ SummaryLaw t ∧ LinksKept (toleranceChange s t) s t ∧ reviewed t ∧ PagesAgree t (panelPages t)
          ∧ (t.table.firstX = true ↔ s.table.firstX = true ∨ ∃ q ∈ t.table.records, q.marks.exceedsX = true
              ∧ (q.index = w.cursor ∨ ∃ o ∈ s.table.records, o.index = q.index ∧ o.state = .opened))
          ∧ (t.table.firstY = true ↔ s.table.firstY = true ∨ ∃ q ∈ t.table.records, q.marks.exceedsY = true
              ∧ (q.index = w.cursor ∨ ∃ o ∈ s.table.records, o.index = q.index ∧ o.state = .opened)))

/-! ## Flags and restart (10_master_links.md 10.5) -/

/-- CLEAR FLAGS clears the flags it names in the sender's own set, and SET MASK replaces the sender's mask; both
answer with ALERT as it is then. ALERT holds exactly when one or more flags of the link's set are set and unmasked.
RESTART answers DONE, and the engine then takes no request. The model's choice or reading in it: log entry 8. -/
def Obligations.FlagsClearMaskAndRestart : Prop :=
  (∀ x : LinkState, x.alert = true ↔ ∃ i, i < 17 ∧ x.flags.getLsbD i = true ∧ x.mask.getLsbD i = false)
  ∧ ∀ (s : State) (l : Link) (f : Frame),
    (∀ a b c : Byte, f.payload = [a, b, c] →
      let named : FlagSet := BitVec.ofNat 17 (a.toNat * 65536 + b.toNat * 256 + c.toNat)
      (Granted 0x47 l f s → Completes .clearFlags s fun t =>
        t = { s with links := t.links } ∧ (t.link l).flags = (s.link l).flags &&& ~~~named
        ∧ (∀ k, k ≠ l → (t.link k).flags = (s.link k).flags)
        ∧ Answered l f { outcome := .done } (s.link l).mask false s t)
      ∧ (Granted 0x48 l f s → Completes .setMask s fun t =>
        t = { s with links := t.links } ∧ Raised [] s t ∧ Answered l f { outcome := .done } named false s t))
    ∧ (Granted 0x2F .cab f s → f.payload = [] → Completes .restart s fun t =>
        t = { s with links := t.links } ∧ Raised [] s t
        ∧ Answered .cab f { outcome := .done } s.links.cab.mask true s t)

/-! ## Panel Archive (11_panel_archive.md) -/

/-- READ ARCHIVE, in a HELD or RELEASED slot: it returns the pages from the first on, wrapping after the last, and sets
their read marks; a HELD slot with every page read is RELEASED. It is refused BUSY with an operation in flight,
BAD_VALUE for a slot, count or page out of range, and WRONG_STATE in the other slot states. -/
def Obligations.ReadArchiveReturnsAndMarksPages : Prop :=
  ∀ (s : State) (f : Frame) (a b c : Byte), Granted 0x50 .record f s → f.payload = [a, b, c] →
    let x := s.slot a.toNat
    let n := x.pageCount.getD 0
    let readable : Prop := x.state = .held ∨ x.state = .released
    let badSlot : Prop := 7 < a.toNat ∨ c.toNat = 0 ∨ 4 < c.toNat
    let badPage : Prop := n ≤ b.toNat ∨ n < c.toNat
    let idle : Prop := s.archive.engine = .idle
    (¬idle → Refuses .readArchive .record f .busy [] s)
    ∧ (idle → badSlot → Refuses .readArchive .record f .badValue [] s)
    ∧ (idle → ¬badSlot → ¬readable → Refuses .readArchive .record f .wrongState [] s)
    ∧ (idle → ¬badSlot → readable → badPage → Refuses .readArchive .record f .badValue [] s)
    ∧ (idle → ¬badSlot → readable → ¬badPage → s.archive.slots.length = 8 → n ≤ 65 →
        Completes .readArchive s fun t =>
          let y := t.slot a.toNat
          t = { s with archive := { s.archive with slots := s.archive.slots.set a.toNat y }, links := t.links }
          ∧ y = { x with readMarks := y.readMarks, state := y.state }
          ∧ (∀ p, p < n → (y.readMarks.getLsbD p = true ↔ x.readMarks.getLsbD p = true ∨
              ∃ j, j < c.toNat ∧ p = (b.toNat + j) % n))
          ∧ (∀ p, n ≤ p → y.readMarks.getLsbD p = x.readMarks.getLsbD p)
          ∧ (y.state = .released ↔ x.state = .released ∨ ∀ p, p < n → y.readMarks.getLsbD p = true)
          ∧ (y.state ≠ .released → y.state = .held)
          ∧ Raised [] s t
          ∧ Answered .record f
              { outcome := .done
                payload := ((List.range c.toNat).map fun j =>
                  let page := x.pages.getD ((b.toNat + j) % n) []
                  laid [(1, ((b.toNat + j) % n : Nat)), (2, page.length)] ++ page).flatten }
              s.links.record.mask false s t)

/-- ERASE SLOT starts the erase of a RELEASED or FAULTY slot; it is refused BUSY with an operation in flight,
BAD_VALUE for a slot above 7, NOT_RELEASED for a HELD slot and WRONG_STATE for an EMPTY one. WIPE ARCHIVE erases every
slot that is not EMPTY, in ascending order. The completion of an erase leaves the slot EMPTY, or FAULTY with
ARCHIVE_FAULT; the last one raises ARCHIVE_DONE. The model's choice or reading in it: log entry 7. -/
def Obligations.EraseAndWipeEmptySlots : Prop :=
  (∀ (s : State) (f : Frame) (b : Byte), Granted 0x52 .record f s → f.payload = [b] →
    let i := b.toNat
    let idle : Prop := s.archive.engine = .idle
    (¬idle → Refuses .eraseSlot .record f .busy [] s)
    ∧ (idle → 7 < i → Refuses .eraseSlot .record f .badValue [] s)
    ∧ (idle → i ≤ 7 → (s.slot i).state = .held → Refuses .eraseSlot .record f .notReleased [] s)
    ∧ (idle → i ≤ 7 → (s.slot i).state = .empty → Refuses .eraseSlot .record f .wrongState [] s)
    ∧ (idle → i ≤ 7 → (s.slot i).state = .released ∨ (s.slot i).state = .faulty →
        Serves .eraseSlot .record f { outcome := .accepted } [] s
          { s with archive := { slots := s.archive.slots.set i { s.slot i with state := .erasing }
                                engine := .erase i (s.clock + 400000) } }))
  ∧ (∀ (s : State) (f : Frame), Granted 0x53 .record f s → f.payload = [] →
      let full := (List.range s.archive.slots.length).filter fun i => decide ((s.slot i).state ≠ .empty)
      (s.archive.engine ≠ .idle → Refuses .wipeArchive .record f .busy [] s)
      ∧ (s.archive.engine = .idle → full = [] →
          Serves .wipeArchive .record f { outcome := .accepted } [.archiveDone] s s)
      ∧ ∀ i rest, s.archive.engine = .idle → full = i :: rest →
          Serves .wipeArchive .record f { outcome := .accepted } [] s
            { s with archive := { slots := s.archive.slots.set i { s.slot i with state := .erasing }
                                  engine := .wipe i rest (s.clock + 400000) } })
  ∧ ∀ (s : State) (blank : Bool) (i due : Nat), s.resetLine = false →
      let now := max s.clock due
      let slots := s.archive.slots.set i (erased blank (s.slot i))
      (s.archive.engine = .erase i due ∨ s.archive.engine = .wipe i [] due →
        Happens (.eraseCompletion blank) (.archiveDone :: eraseFlags blank) s
          { s with clock := now, archive := { slots := slots, engine := .idle } })
      ∧ ∀ j rest, s.archive.engine = .wipe i (j :: rest) due → j ≠ i →
          Happens (.eraseCompletion blank) (eraseFlags blank) s
            { s with
              clock := now
              archive := { slots := slots.set j { s.slot j with state := .erasing }
                           engine := .wipe j rest (now + 400000) } }

/-- A page that reads back right joins its slot's pages, and the next page is programmed 5 ms on; after the last page
the slot is HELD. A page that does not makes the slot FAULTY, raises ARCHIVE_FAULT and ends the write. At the end
ARCHIVE_DONE is raised, the engine is IDLE, the panel CLOSED, and the WAITING holds are reviewed. The model's choice
or reading in it: log entry 7. -/
def Obligations.PageProgramsFillTheSlot : Prop :=
  ∀ (s : State) (verified : Bool) (i page : Nat) (image : List (List Byte)) (due : Nat), s.resetLine = false →
    s.archive.engine = .programming i page image due →
    let now := max s.clock due
    let x := s.slot i
    let grown : Slot := { x with pages := x.pages ++ [image.getD page []] }
    (verified = true → page + 1 < image.length → exec (.pageProgramCompletion verified) s = .next { s with
      clock := now
      archive := { slots := s.archive.slots.set i grown, engine := .programming i (page + 1) image (now + 5000) } })
    ∧ (verified = false ∨ image.length ≤ page + 1 → Completes (.pageProgramCompletion verified) s fun t =>
        t = { s with
          clock := now
          panel := .closed
          depth := Governed s.depth { s.depth.reasons with panel := true }
          table := t.table
          archive := {
            slots := s.archive.slots.set i
              (if verified then { grown with state := .held } else { x with state := .faulty })
            engine := .idle }
          links := t.links }
        ∧ HoldsReviewed s.table t.table
        ∧ LinksKept ((if verified then [] else [.archiveFault]) ++ .archiveDone :: holdChange s t) s t)
end

