-- ==== Sys2Proof/Laws/Bytes.lean ====
section
/-! SUPPORT. Fields of bytes: their length, and that reading a field gives back what was laid out in it. -/

namespace Sys2Proof.Machine

@[simp] theorem field_length (n : Nat) (v : Int) : (field n v).length = n := by
  induction n with
  | zero => rfl
  | succ n ih => simp [field, ih]

theorem unsignedOf_foldl (bs : List Byte) (x : Int) :
    bs.foldl (fun acc b => acc * 256 + (b.toNat : Int)) x = x * 256 ^ bs.length + unsignedOf bs := by
  unfold unsignedOf
  induction bs generalizing x with
  | nil => simp
  | cons b bs ih =>
    simp only [List.foldl_cons, List.length_cons]
    rw [ih, ih (0 * 256 + (b.toNat : Int))]
    ring

theorem unsignedOf_cons (b : Byte) (bs : List Byte) :
    unsignedOf (b :: bs) = b.toNat * 256 ^ bs.length + unsignedOf bs := by
  have := unsignedOf_foldl bs (0 * 256 + (b.toNat : Int))
  simpa [unsignedOf] using this

/-- A field reads back as its value modulo its size. -/
theorem unsignedOf_field (n : Nat) (v : Int) : unsignedOf (field n v) = v % 256 ^ n := by
  induction n with
  | zero => simp [field, unsignedOf]
  | succ n ih =>
    rw [field, unsignedOf_cons, ih, field_length, BitVec.toNat_ofInt]
    have hp : (0 : Int) < 256 ^ n := by positivity
    have h2 : ((((v / 256 ^ n) % ((2 ^ 8 : Nat) : Int)).toNat : Nat) : Int) = (v / 256 ^ n) % 256 := by
      rw [Int.toNat_of_nonneg (Int.emod_nonneg _ (by norm_num))]
      norm_num
    rw [h2]
    have h3 := Int.emod_add_mul_ediv v (256 ^ n)
    have h5 := Int.emod_add_mul_ediv (v / 256 ^ n) 256
    have h4 : v % 256 ^ (n + 1) = v % 256 ^ n + 256 ^ n * (v / 256 ^ n % 256) := by
      have e : v = v % 256 ^ n + 256 ^ n * (v / 256 ^ n % 256) + 256 ^ (n + 1) * (v / 256 ^ n / 256) := by
        rw [pow_succ]
        linear_combination (exp := 1) -h3 - 256 ^ n * h5
      have l1 := Int.emod_nonneg v hp.ne'
      have l2 := Int.emod_lt_of_pos v hp
      have m1 := Int.emod_nonneg (v / 256 ^ n) (by norm_num : (256 : Int) ≠ 0)
      have m2 := Int.emod_lt_of_pos (v / 256 ^ n) (by norm_num : (0 : Int) < 256)
      conv_lhs => rw [e]
      rw [Int.add_mul_emod_self_left, Int.emod_eq_of_lt (by positivity)]
      rw [pow_succ]
      nlinarith
    rw [h4]; ring

/-- An unsigned field reads back as its value, when it fits. -/
theorem unsignedOf_field_of_mem {n : Nat} {v : Int} (h : 0 ≤ v) (g : v < 256 ^ n) : unsignedOf (field n v) = v := by
  rw [unsignedOf_field, Int.emod_eq_of_lt h g]

/-- A signed field reads back as its value, when it fits. -/
theorem signedOf_field_of_mem {n : Nat} {v : Int} (h : -(256 ^ n) ≤ 2 * v) (g : 2 * v < 256 ^ n) :
    signedOf (field n v) = v := by
  unfold signedOf
  simp only [unsignedOf_field, field_length]
  rcases le_or_gt 0 v with h0 | h0
  · rw [Int.emod_eq_of_lt h0 (by omega)]; simp [g]
  · have e : v % 256 ^ n = v + 256 ^ n := by
      rw [← Int.add_emod_right, Int.emod_eq_of_lt (by omega) (by omega)]
    rw [e]
    have : ¬2 * (v + 256 ^ n) < 256 ^ n := by omega
    simp [this]

end Sys2Proof.Machine
end

