-- ==== Sys2Proof/Laws/State.lean ====
section
/-! SUPPORT. What each update of the state leaves alone: one lemma for each field that the update does not touch. -/

namespace Sys2Proof.Machine

variable (s : State)

/-! ## States field by field -/

/-- Two states with the same fields are one state. -/
theorem state_ext {s t : State} (h0 : s.resetLine = t.resetLine)
    (h1 : s.clock = t.clock)
    (h2 : s.panel = t.panel)
    (h3 : s.geometry = t.geometry)
    (h4 : s.acq = t.acq)
    (h5 : s.depth = t.depth)
    (h6 : s.table = t.table)
    (h7 : s.align = t.align)
    (h8 : s.drives = t.drives)
    (h9 : s.plates = t.plates)
    (h10 : s.ret = t.ret)
    (h11 : s.demand = t.demand)
    (h12 : s.links = t.links)
    (h13 : s.archive = t.archive)
    (h14 : s.draws = t.draws)
    (h15 : s.pending = t.pending) : s = t := by
  obtain ⟨_, _, _, _, _, _, _, _, _, _, _, _, _, _, _, _⟩ := s
  obtain ⟨_, _, _, _, _, _, _, _, _, _, _, _, _, _, _, _⟩ := t
  simp_all

/-! ## `raise` -/

@[simp] theorem raise_resetLine (f : Flag) : (raise f s).resetLine = s.resetLine := rfl
@[simp] theorem raise_clock (f : Flag) : (raise f s).clock = s.clock := rfl
@[simp] theorem raise_panel (f : Flag) : (raise f s).panel = s.panel := rfl
@[simp] theorem raise_geometry (f : Flag) : (raise f s).geometry = s.geometry := rfl
@[simp] theorem raise_acq (f : Flag) : (raise f s).acq = s.acq := rfl
@[simp] theorem raise_depth (f : Flag) : (raise f s).depth = s.depth := rfl
@[simp] theorem raise_table (f : Flag) : (raise f s).table = s.table := rfl
@[simp] theorem raise_align (f : Flag) : (raise f s).align = s.align := rfl
@[simp] theorem raise_drives (f : Flag) : (raise f s).drives = s.drives := rfl
@[simp] theorem raise_plates (f : Flag) : (raise f s).plates = s.plates := rfl
@[simp] theorem raise_ret (f : Flag) : (raise f s).ret = s.ret := rfl
@[simp] theorem raise_demand (f : Flag) : (raise f s).demand = s.demand := rfl
@[simp] theorem raise_archive (f : Flag) : (raise f s).archive = s.archive := rfl
@[simp] theorem raise_draws (f : Flag) : (raise f s).draws = s.draws := rfl
@[simp] theorem raise_pending (f : Flag) : (raise f s).pending = s.pending := rfl

/-! ## `raiseIf` -/

@[simp] theorem raiseIf_resetLine (c : Bool) (f : Flag) : (raiseIf c f s).resetLine = s.resetLine := by unfold raiseIf; split <;> rfl
@[simp] theorem raiseIf_clock (c : Bool) (f : Flag) : (raiseIf c f s).clock = s.clock := by unfold raiseIf; split <;> rfl
@[simp] theorem raiseIf_panel (c : Bool) (f : Flag) : (raiseIf c f s).panel = s.panel := by unfold raiseIf; split <;> rfl
@[simp] theorem raiseIf_geometry (c : Bool) (f : Flag) : (raiseIf c f s).geometry = s.geometry := by unfold raiseIf; split <;> rfl
@[simp] theorem raiseIf_acq (c : Bool) (f : Flag) : (raiseIf c f s).acq = s.acq := by unfold raiseIf; split <;> rfl
@[simp] theorem raiseIf_depth (c : Bool) (f : Flag) : (raiseIf c f s).depth = s.depth := by unfold raiseIf; split <;> rfl
@[simp] theorem raiseIf_table (c : Bool) (f : Flag) : (raiseIf c f s).table = s.table := by unfold raiseIf; split <;> rfl
@[simp] theorem raiseIf_align (c : Bool) (f : Flag) : (raiseIf c f s).align = s.align := by unfold raiseIf; split <;> rfl
@[simp] theorem raiseIf_drives (c : Bool) (f : Flag) : (raiseIf c f s).drives = s.drives := by unfold raiseIf; split <;> rfl
@[simp] theorem raiseIf_plates (c : Bool) (f : Flag) : (raiseIf c f s).plates = s.plates := by unfold raiseIf; split <;> rfl
@[simp] theorem raiseIf_ret (c : Bool) (f : Flag) : (raiseIf c f s).ret = s.ret := by unfold raiseIf; split <;> rfl
@[simp] theorem raiseIf_demand (c : Bool) (f : Flag) : (raiseIf c f s).demand = s.demand := by unfold raiseIf; split <;> rfl
@[simp] theorem raiseIf_archive (c : Bool) (f : Flag) : (raiseIf c f s).archive = s.archive := by unfold raiseIf; split <;> rfl
@[simp] theorem raiseIf_draws (c : Bool) (f : Flag) : (raiseIf c f s).draws = s.draws := by unfold raiseIf; split <;> rfl
@[simp] theorem raiseIf_pending (c : Bool) (f : Flag) : (raiseIf c f s).pending = s.pending := by unfold raiseIf; split <;> rfl

/-! ## `govern` -/

@[simp] theorem govern_resetLine (g : HoldReasons → HoldReasons) : (govern g s).resetLine = s.resetLine := by unfold govern; simp
@[simp] theorem govern_clock (g : HoldReasons → HoldReasons) : (govern g s).clock = s.clock := by unfold govern; simp
@[simp] theorem govern_panel (g : HoldReasons → HoldReasons) : (govern g s).panel = s.panel := by unfold govern; simp
@[simp] theorem govern_geometry (g : HoldReasons → HoldReasons) : (govern g s).geometry = s.geometry := by unfold govern; simp
@[simp] theorem govern_acq (g : HoldReasons → HoldReasons) : (govern g s).acq = s.acq := by unfold govern; simp
@[simp] theorem govern_table (g : HoldReasons → HoldReasons) : (govern g s).table = s.table := by unfold govern; simp
@[simp] theorem govern_align (g : HoldReasons → HoldReasons) : (govern g s).align = s.align := by unfold govern; simp
@[simp] theorem govern_drives (g : HoldReasons → HoldReasons) : (govern g s).drives = s.drives := by unfold govern; simp
@[simp] theorem govern_plates (g : HoldReasons → HoldReasons) : (govern g s).plates = s.plates := by unfold govern; simp
@[simp] theorem govern_ret (g : HoldReasons → HoldReasons) : (govern g s).ret = s.ret := by unfold govern; simp
@[simp] theorem govern_demand (g : HoldReasons → HoldReasons) : (govern g s).demand = s.demand := by unfold govern; simp
@[simp] theorem govern_archive (g : HoldReasons → HoldReasons) : (govern g s).archive = s.archive := by unfold govern; simp
@[simp] theorem govern_draws (g : HoldReasons → HoldReasons) : (govern g s).draws = s.draws := by unfold govern; simp
@[simp] theorem govern_pending (g : HoldReasons → HoldReasons) : (govern g s).pending = s.pending := by unfold govern; simp

/-! ## `reach` -/

@[simp] theorem reach_resetLine (n : Nat) : (s.reach n).resetLine = s.resetLine := rfl
@[simp] theorem reach_panel (n : Nat) : (s.reach n).panel = s.panel := rfl
@[simp] theorem reach_geometry (n : Nat) : (s.reach n).geometry = s.geometry := rfl
@[simp] theorem reach_acq (n : Nat) : (s.reach n).acq = s.acq := rfl
@[simp] theorem reach_depth (n : Nat) : (s.reach n).depth = s.depth := rfl
@[simp] theorem reach_table (n : Nat) : (s.reach n).table = s.table := rfl
@[simp] theorem reach_align (n : Nat) : (s.reach n).align = s.align := rfl
@[simp] theorem reach_drives (n : Nat) : (s.reach n).drives = s.drives := rfl
@[simp] theorem reach_plates (n : Nat) : (s.reach n).plates = s.plates := rfl
@[simp] theorem reach_ret (n : Nat) : (s.reach n).ret = s.ret := rfl
@[simp] theorem reach_demand (n : Nat) : (s.reach n).demand = s.demand := rfl
@[simp] theorem reach_links (n : Nat) : (s.reach n).links = s.links := rfl
@[simp] theorem reach_archive (n : Nat) : (s.reach n).archive = s.archive := rfl
@[simp] theorem reach_draws (n : Nat) : (s.reach n).draws = s.draws := rfl
@[simp] theorem reach_pending (n : Nat) : (s.reach n).pending = s.pending := rfl

/-! ## `drawn` -/

@[simp] theorem drawn_resetLine : (s.drawn).resetLine = s.resetLine := rfl
@[simp] theorem drawn_clock : (s.drawn).clock = s.clock := rfl
@[simp] theorem drawn_panel : (s.drawn).panel = s.panel := rfl
@[simp] theorem drawn_geometry : (s.drawn).geometry = s.geometry := rfl
@[simp] theorem drawn_acq : (s.drawn).acq = s.acq := rfl
@[simp] theorem drawn_depth : (s.drawn).depth = s.depth := rfl
@[simp] theorem drawn_table : (s.drawn).table = s.table := rfl
@[simp] theorem drawn_align : (s.drawn).align = s.align := rfl
@[simp] theorem drawn_drives : (s.drawn).drives = s.drives := rfl
@[simp] theorem drawn_plates : (s.drawn).plates = s.plates := rfl
@[simp] theorem drawn_ret : (s.drawn).ret = s.ret := rfl
@[simp] theorem drawn_demand : (s.drawn).demand = s.demand := rfl
@[simp] theorem drawn_links : (s.drawn).links = s.links := rfl
@[simp] theorem drawn_archive : (s.drawn).archive = s.archive := rfl
@[simp] theorem drawn_pending : (s.drawn).pending = s.pending := rfl

/-! ## `setLink` -/

@[simp] theorem setLink_resetLine (l : Link) (x : LinkState) : (s.setLink l x).resetLine = s.resetLine := by cases l <;> rfl
@[simp] theorem setLink_clock (l : Link) (x : LinkState) : (s.setLink l x).clock = s.clock := by cases l <;> rfl
@[simp] theorem setLink_panel (l : Link) (x : LinkState) : (s.setLink l x).panel = s.panel := by cases l <;> rfl
@[simp] theorem setLink_geometry (l : Link) (x : LinkState) : (s.setLink l x).geometry = s.geometry := by cases l <;> rfl
@[simp] theorem setLink_acq (l : Link) (x : LinkState) : (s.setLink l x).acq = s.acq := by cases l <;> rfl
@[simp] theorem setLink_depth (l : Link) (x : LinkState) : (s.setLink l x).depth = s.depth := by cases l <;> rfl
@[simp] theorem setLink_table (l : Link) (x : LinkState) : (s.setLink l x).table = s.table := by cases l <;> rfl
@[simp] theorem setLink_align (l : Link) (x : LinkState) : (s.setLink l x).align = s.align := by cases l <;> rfl
@[simp] theorem setLink_drives (l : Link) (x : LinkState) : (s.setLink l x).drives = s.drives := by cases l <;> rfl
@[simp] theorem setLink_plates (l : Link) (x : LinkState) : (s.setLink l x).plates = s.plates := by cases l <;> rfl
@[simp] theorem setLink_ret (l : Link) (x : LinkState) : (s.setLink l x).ret = s.ret := by cases l <;> rfl
@[simp] theorem setLink_demand (l : Link) (x : LinkState) : (s.setLink l x).demand = s.demand := by cases l <;> rfl
@[simp] theorem setLink_archive (l : Link) (x : LinkState) : (s.setLink l x).archive = s.archive := by cases l <;> rfl
@[simp] theorem setLink_draws (l : Link) (x : LinkState) : (s.setLink l x).draws = s.draws := by cases l <;> rfl
@[simp] theorem setLink_pending (l : Link) (x : LinkState) : (s.setLink l x).pending = s.pending := by cases l <;> rfl

/-! ## `takeHead` -/

@[simp] theorem takeHead_resetLine (l : Link) : (takeHead l s).resetLine = s.resetLine := by cases l <;> rfl
@[simp] theorem takeHead_clock (l : Link) : (takeHead l s).clock = s.clock := by cases l <;> rfl
@[simp] theorem takeHead_panel (l : Link) : (takeHead l s).panel = s.panel := by cases l <;> rfl
@[simp] theorem takeHead_geometry (l : Link) : (takeHead l s).geometry = s.geometry := by cases l <;> rfl
@[simp] theorem takeHead_acq (l : Link) : (takeHead l s).acq = s.acq := by cases l <;> rfl
@[simp] theorem takeHead_depth (l : Link) : (takeHead l s).depth = s.depth := by cases l <;> rfl
@[simp] theorem takeHead_table (l : Link) : (takeHead l s).table = s.table := by cases l <;> rfl
@[simp] theorem takeHead_align (l : Link) : (takeHead l s).align = s.align := by cases l <;> rfl
@[simp] theorem takeHead_drives (l : Link) : (takeHead l s).drives = s.drives := by cases l <;> rfl
@[simp] theorem takeHead_plates (l : Link) : (takeHead l s).plates = s.plates := by cases l <;> rfl
@[simp] theorem takeHead_ret (l : Link) : (takeHead l s).ret = s.ret := by cases l <;> rfl
@[simp] theorem takeHead_demand (l : Link) : (takeHead l s).demand = s.demand := by cases l <;> rfl
@[simp] theorem takeHead_archive (l : Link) : (takeHead l s).archive = s.archive := by cases l <;> rfl
@[simp] theorem takeHead_draws (l : Link) : (takeHead l s).draws = s.draws := by cases l <;> rfl
@[simp] theorem takeHead_pending (l : Link) : (takeHead l s).pending = s.pending := by cases l <;> rfl

/-! ## `buildReply` -/

@[simp] theorem buildReply_resetLine (l : Link) (f : Frame) (a : Answer) : (buildReply l f a s).resetLine = s.resetLine := by cases l <;> rfl
@[simp] theorem buildReply_clock (l : Link) (f : Frame) (a : Answer) : (buildReply l f a s).clock = s.clock := by cases l <;> rfl
@[simp] theorem buildReply_panel (l : Link) (f : Frame) (a : Answer) : (buildReply l f a s).panel = s.panel := by cases l <;> rfl
@[simp] theorem buildReply_geometry (l : Link) (f : Frame) (a : Answer) : (buildReply l f a s).geometry = s.geometry := by cases l <;> rfl
@[simp] theorem buildReply_acq (l : Link) (f : Frame) (a : Answer) : (buildReply l f a s).acq = s.acq := by cases l <;> rfl
@[simp] theorem buildReply_depth (l : Link) (f : Frame) (a : Answer) : (buildReply l f a s).depth = s.depth := by cases l <;> rfl
@[simp] theorem buildReply_table (l : Link) (f : Frame) (a : Answer) : (buildReply l f a s).table = s.table := by cases l <;> rfl
@[simp] theorem buildReply_align (l : Link) (f : Frame) (a : Answer) : (buildReply l f a s).align = s.align := by cases l <;> rfl
@[simp] theorem buildReply_drives (l : Link) (f : Frame) (a : Answer) : (buildReply l f a s).drives = s.drives := by cases l <;> rfl
@[simp] theorem buildReply_plates (l : Link) (f : Frame) (a : Answer) : (buildReply l f a s).plates = s.plates := by cases l <;> rfl
@[simp] theorem buildReply_ret (l : Link) (f : Frame) (a : Answer) : (buildReply l f a s).ret = s.ret := by cases l <;> rfl
@[simp] theorem buildReply_demand (l : Link) (f : Frame) (a : Answer) : (buildReply l f a s).demand = s.demand := by cases l <;> rfl
@[simp] theorem buildReply_archive (l : Link) (f : Frame) (a : Answer) : (buildReply l f a s).archive = s.archive := by cases l <;> rfl
@[simp] theorem buildReply_draws (l : Link) (f : Frame) (a : Answer) : (buildReply l f a s).draws = s.draws := by cases l <;> rfl
@[simp] theorem buildReply_pending (l : Link) (f : Frame) (a : Answer) : (buildReply l f a s).pending = s.pending := by cases l <;> rfl

/-! ## `setAcq` -/

@[simp] theorem setAcq_resetLine (g : Acquisition → Acquisition) : (s.setAcq g).resetLine = s.resetLine := rfl
@[simp] theorem setAcq_clock (g : Acquisition → Acquisition) : (s.setAcq g).clock = s.clock := rfl
@[simp] theorem setAcq_panel (g : Acquisition → Acquisition) : (s.setAcq g).panel = s.panel := rfl
@[simp] theorem setAcq_geometry (g : Acquisition → Acquisition) : (s.setAcq g).geometry = s.geometry := rfl
@[simp] theorem setAcq_depth (g : Acquisition → Acquisition) : (s.setAcq g).depth = s.depth := rfl
@[simp] theorem setAcq_table (g : Acquisition → Acquisition) : (s.setAcq g).table = s.table := rfl
@[simp] theorem setAcq_align (g : Acquisition → Acquisition) : (s.setAcq g).align = s.align := rfl
@[simp] theorem setAcq_drives (g : Acquisition → Acquisition) : (s.setAcq g).drives = s.drives := rfl
@[simp] theorem setAcq_plates (g : Acquisition → Acquisition) : (s.setAcq g).plates = s.plates := rfl
@[simp] theorem setAcq_ret (g : Acquisition → Acquisition) : (s.setAcq g).ret = s.ret := rfl
@[simp] theorem setAcq_demand (g : Acquisition → Acquisition) : (s.setAcq g).demand = s.demand := rfl
@[simp] theorem setAcq_links (g : Acquisition → Acquisition) : (s.setAcq g).links = s.links := rfl
@[simp] theorem setAcq_archive (g : Acquisition → Acquisition) : (s.setAcq g).archive = s.archive := rfl
@[simp] theorem setAcq_draws (g : Acquisition → Acquisition) : (s.setAcq g).draws = s.draws := rfl
@[simp] theorem setAcq_pending (g : Acquisition → Acquisition) : (s.setAcq g).pending = s.pending := rfl

/-! ## `setWheel` -/

@[simp] theorem setWheel_resetLine (w : WheelId) (d : WheelDrive) : (s.setWheel w d).resetLine = s.resetLine := by cases w <;> rfl
@[simp] theorem setWheel_clock (w : WheelId) (d : WheelDrive) : (s.setWheel w d).clock = s.clock := by cases w <;> rfl
@[simp] theorem setWheel_panel (w : WheelId) (d : WheelDrive) : (s.setWheel w d).panel = s.panel := by cases w <;> rfl
@[simp] theorem setWheel_geometry (w : WheelId) (d : WheelDrive) : (s.setWheel w d).geometry = s.geometry := by cases w <;> rfl
@[simp] theorem setWheel_acq (w : WheelId) (d : WheelDrive) : (s.setWheel w d).acq = s.acq := by cases w <;> rfl
@[simp] theorem setWheel_depth (w : WheelId) (d : WheelDrive) : (s.setWheel w d).depth = s.depth := by cases w <;> rfl
@[simp] theorem setWheel_table (w : WheelId) (d : WheelDrive) : (s.setWheel w d).table = s.table := by cases w <;> rfl
@[simp] theorem setWheel_align (w : WheelId) (d : WheelDrive) : (s.setWheel w d).align = s.align := by cases w <;> rfl
@[simp] theorem setWheel_plates (w : WheelId) (d : WheelDrive) : (s.setWheel w d).plates = s.plates := by cases w <;> rfl
@[simp] theorem setWheel_ret (w : WheelId) (d : WheelDrive) : (s.setWheel w d).ret = s.ret := by cases w <;> rfl
@[simp] theorem setWheel_demand (w : WheelId) (d : WheelDrive) : (s.setWheel w d).demand = s.demand := by cases w <;> rfl
@[simp] theorem setWheel_links (w : WheelId) (d : WheelDrive) : (s.setWheel w d).links = s.links := by cases w <;> rfl
@[simp] theorem setWheel_archive (w : WheelId) (d : WheelDrive) : (s.setWheel w d).archive = s.archive := by cases w <;> rfl
@[simp] theorem setWheel_draws (w : WheelId) (d : WheelDrive) : (s.setWheel w d).draws = s.draws := by cases w <;> rfl
@[simp] theorem setWheel_pending (w : WheelId) (d : WheelDrive) : (s.setWheel w d).pending = s.pending := by cases w <;> rfl

/-! ## `setMotor` -/

@[simp] theorem setMotor_resetLine (d : DriveId) (m : Motor) : (s.setMotor d m).resetLine = s.resetLine := by cases d <;> rfl
@[simp] theorem setMotor_clock (d : DriveId) (m : Motor) : (s.setMotor d m).clock = s.clock := by cases d <;> rfl
@[simp] theorem setMotor_panel (d : DriveId) (m : Motor) : (s.setMotor d m).panel = s.panel := by cases d <;> rfl
@[simp] theorem setMotor_geometry (d : DriveId) (m : Motor) : (s.setMotor d m).geometry = s.geometry := by cases d <;> rfl
@[simp] theorem setMotor_acq (d : DriveId) (m : Motor) : (s.setMotor d m).acq = s.acq := by cases d <;> rfl
@[simp] theorem setMotor_depth (d : DriveId) (m : Motor) : (s.setMotor d m).depth = s.depth := by cases d <;> rfl
@[simp] theorem setMotor_table (d : DriveId) (m : Motor) : (s.setMotor d m).table = s.table := by cases d <;> rfl
@[simp] theorem setMotor_align (d : DriveId) (m : Motor) : (s.setMotor d m).align = s.align := by cases d <;> rfl
@[simp] theorem setMotor_plates (d : DriveId) (m : Motor) : (s.setMotor d m).plates = s.plates := by cases d <;> rfl
@[simp] theorem setMotor_ret (d : DriveId) (m : Motor) : (s.setMotor d m).ret = s.ret := by cases d <;> rfl
@[simp] theorem setMotor_demand (d : DriveId) (m : Motor) : (s.setMotor d m).demand = s.demand := by cases d <;> rfl
@[simp] theorem setMotor_links (d : DriveId) (m : Motor) : (s.setMotor d m).links = s.links := by cases d <;> rfl
@[simp] theorem setMotor_archive (d : DriveId) (m : Motor) : (s.setMotor d m).archive = s.archive := by cases d <;> rfl
@[simp] theorem setMotor_draws (d : DriveId) (m : Motor) : (s.setMotor d m).draws = s.draws := by cases d <;> rfl
@[simp] theorem setMotor_pending (d : DriveId) (m : Motor) : (s.setMotor d m).pending = s.pending := by cases d <;> rfl

/-! ## `setPlate` -/

@[simp] theorem setPlate_resetLine (i : PlateId) (p : Plate) : (s.setPlate i p).resetLine = s.resetLine := by cases i <;> rfl
@[simp] theorem setPlate_clock (i : PlateId) (p : Plate) : (s.setPlate i p).clock = s.clock := by cases i <;> rfl
@[simp] theorem setPlate_panel (i : PlateId) (p : Plate) : (s.setPlate i p).panel = s.panel := by cases i <;> rfl
@[simp] theorem setPlate_geometry (i : PlateId) (p : Plate) : (s.setPlate i p).geometry = s.geometry := by cases i <;> rfl
@[simp] theorem setPlate_acq (i : PlateId) (p : Plate) : (s.setPlate i p).acq = s.acq := by cases i <;> rfl
@[simp] theorem setPlate_depth (i : PlateId) (p : Plate) : (s.setPlate i p).depth = s.depth := by cases i <;> rfl
@[simp] theorem setPlate_table (i : PlateId) (p : Plate) : (s.setPlate i p).table = s.table := by cases i <;> rfl
@[simp] theorem setPlate_align (i : PlateId) (p : Plate) : (s.setPlate i p).align = s.align := by cases i <;> rfl
@[simp] theorem setPlate_drives (i : PlateId) (p : Plate) : (s.setPlate i p).drives = s.drives := by cases i <;> rfl
@[simp] theorem setPlate_ret (i : PlateId) (p : Plate) : (s.setPlate i p).ret = s.ret := by cases i <;> rfl
@[simp] theorem setPlate_demand (i : PlateId) (p : Plate) : (s.setPlate i p).demand = s.demand := by cases i <;> rfl
@[simp] theorem setPlate_links (i : PlateId) (p : Plate) : (s.setPlate i p).links = s.links := by cases i <;> rfl
@[simp] theorem setPlate_archive (i : PlateId) (p : Plate) : (s.setPlate i p).archive = s.archive := by cases i <;> rfl
@[simp] theorem setPlate_draws (i : PlateId) (p : Plate) : (s.setPlate i p).draws = s.draws := by cases i <;> rfl
@[simp] theorem setPlate_pending (i : PlateId) (p : Plate) : (s.setPlate i p).pending = s.pending := by cases i <;> rfl

/-! ## `setSlot` -/

@[simp] theorem setSlot_resetLine (i : Nat) (x : Slot) : (s.setSlot i x).resetLine = s.resetLine := rfl
@[simp] theorem setSlot_clock (i : Nat) (x : Slot) : (s.setSlot i x).clock = s.clock := rfl
@[simp] theorem setSlot_panel (i : Nat) (x : Slot) : (s.setSlot i x).panel = s.panel := rfl
@[simp] theorem setSlot_geometry (i : Nat) (x : Slot) : (s.setSlot i x).geometry = s.geometry := rfl
@[simp] theorem setSlot_acq (i : Nat) (x : Slot) : (s.setSlot i x).acq = s.acq := rfl
@[simp] theorem setSlot_depth (i : Nat) (x : Slot) : (s.setSlot i x).depth = s.depth := rfl
@[simp] theorem setSlot_table (i : Nat) (x : Slot) : (s.setSlot i x).table = s.table := rfl
@[simp] theorem setSlot_align (i : Nat) (x : Slot) : (s.setSlot i x).align = s.align := rfl
@[simp] theorem setSlot_drives (i : Nat) (x : Slot) : (s.setSlot i x).drives = s.drives := rfl
@[simp] theorem setSlot_plates (i : Nat) (x : Slot) : (s.setSlot i x).plates = s.plates := rfl
@[simp] theorem setSlot_ret (i : Nat) (x : Slot) : (s.setSlot i x).ret = s.ret := rfl
@[simp] theorem setSlot_demand (i : Nat) (x : Slot) : (s.setSlot i x).demand = s.demand := rfl
@[simp] theorem setSlot_links (i : Nat) (x : Slot) : (s.setSlot i x).links = s.links := rfl
@[simp] theorem setSlot_draws (i : Nat) (x : Slot) : (s.setSlot i x).draws = s.draws := rfl
@[simp] theorem setSlot_pending (i : Nat) (x : Slot) : (s.setSlot i x).pending = s.pending := rfl

/-! ## `setEngine` -/

@[simp] theorem setEngine_resetLine (e : Engine) : (s.setEngine e).resetLine = s.resetLine := rfl
@[simp] theorem setEngine_clock (e : Engine) : (s.setEngine e).clock = s.clock := rfl
@[simp] theorem setEngine_panel (e : Engine) : (s.setEngine e).panel = s.panel := rfl
@[simp] theorem setEngine_geometry (e : Engine) : (s.setEngine e).geometry = s.geometry := rfl
@[simp] theorem setEngine_acq (e : Engine) : (s.setEngine e).acq = s.acq := rfl
@[simp] theorem setEngine_depth (e : Engine) : (s.setEngine e).depth = s.depth := rfl
@[simp] theorem setEngine_table (e : Engine) : (s.setEngine e).table = s.table := rfl
@[simp] theorem setEngine_align (e : Engine) : (s.setEngine e).align = s.align := rfl
@[simp] theorem setEngine_drives (e : Engine) : (s.setEngine e).drives = s.drives := rfl
@[simp] theorem setEngine_plates (e : Engine) : (s.setEngine e).plates = s.plates := rfl
@[simp] theorem setEngine_ret (e : Engine) : (s.setEngine e).ret = s.ret := rfl
@[simp] theorem setEngine_demand (e : Engine) : (s.setEngine e).demand = s.demand := rfl
@[simp] theorem setEngine_links (e : Engine) : (s.setEngine e).links = s.links := rfl
@[simp] theorem setEngine_draws (e : Engine) : (s.setEngine e).draws = s.draws := rfl
@[simp] theorem setEngine_pending (e : Engine) : (s.setEngine e).pending = s.pending := rfl

/-! ## `setRecords` -/

@[simp] theorem setRecords_resetLine (rs : List Station) : (setRecords rs s).resetLine = s.resetLine := rfl
@[simp] theorem setRecords_clock (rs : List Station) : (setRecords rs s).clock = s.clock := rfl
@[simp] theorem setRecords_panel (rs : List Station) : (setRecords rs s).panel = s.panel := rfl
@[simp] theorem setRecords_geometry (rs : List Station) : (setRecords rs s).geometry = s.geometry := rfl
@[simp] theorem setRecords_acq (rs : List Station) : (setRecords rs s).acq = s.acq := rfl
@[simp] theorem setRecords_depth (rs : List Station) : (setRecords rs s).depth = s.depth := rfl
@[simp] theorem setRecords_align (rs : List Station) : (setRecords rs s).align = s.align := rfl
@[simp] theorem setRecords_drives (rs : List Station) : (setRecords rs s).drives = s.drives := rfl
@[simp] theorem setRecords_plates (rs : List Station) : (setRecords rs s).plates = s.plates := rfl
@[simp] theorem setRecords_ret (rs : List Station) : (setRecords rs s).ret = s.ret := rfl
@[simp] theorem setRecords_demand (rs : List Station) : (setRecords rs s).demand = s.demand := rfl
@[simp] theorem setRecords_links (rs : List Station) : (setRecords rs s).links = s.links := rfl
@[simp] theorem setRecords_archive (rs : List Station) : (setRecords rs s).archive = s.archive := rfl
@[simp] theorem setRecords_draws (rs : List Station) : (setRecords rs s).draws = s.draws := rfl
@[simp] theorem setRecords_pending (rs : List Station) : (setRecords rs s).pending = s.pending := rfl

/-! ## `applyTolerance` -/

@[simp] theorem applyTolerance_resetLine (r : Station) : (applyTolerance r s).resetLine = s.resetLine := by simp [applyTolerance]
@[simp] theorem applyTolerance_clock (r : Station) : (applyTolerance r s).clock = s.clock := by simp [applyTolerance]
@[simp] theorem applyTolerance_panel (r : Station) : (applyTolerance r s).panel = s.panel := by simp [applyTolerance]
@[simp] theorem applyTolerance_geometry (r : Station) : (applyTolerance r s).geometry = s.geometry := by simp [applyTolerance]
@[simp] theorem applyTolerance_acq (r : Station) : (applyTolerance r s).acq = s.acq := by simp [applyTolerance]
@[simp] theorem applyTolerance_depth (r : Station) : (applyTolerance r s).depth = s.depth := by simp [applyTolerance]
@[simp] theorem applyTolerance_align (r : Station) : (applyTolerance r s).align = s.align := by simp [applyTolerance]
@[simp] theorem applyTolerance_drives (r : Station) : (applyTolerance r s).drives = s.drives := by simp [applyTolerance]
@[simp] theorem applyTolerance_plates (r : Station) : (applyTolerance r s).plates = s.plates := by simp [applyTolerance]
@[simp] theorem applyTolerance_ret (r : Station) : (applyTolerance r s).ret = s.ret := by simp [applyTolerance]
@[simp] theorem applyTolerance_demand (r : Station) : (applyTolerance r s).demand = s.demand := by simp [applyTolerance]
@[simp] theorem applyTolerance_archive (r : Station) : (applyTolerance r s).archive = s.archive := by simp [applyTolerance]
@[simp] theorem applyTolerance_draws (r : Station) : (applyTolerance r s).draws = s.draws := by simp [applyTolerance]
@[simp] theorem applyTolerance_pending (r : Station) : (applyTolerance r s).pending = s.pending := by simp [applyTolerance]

/-! ## `reviewHolds` -/

@[simp] theorem reviewHolds_resetLine : (reviewHolds s).resetLine = s.resetLine := rfl
@[simp] theorem reviewHolds_clock : (reviewHolds s).clock = s.clock := rfl
@[simp] theorem reviewHolds_panel : (reviewHolds s).panel = s.panel := rfl
@[simp] theorem reviewHolds_geometry : (reviewHolds s).geometry = s.geometry := rfl
@[simp] theorem reviewHolds_acq : (reviewHolds s).acq = s.acq := rfl
@[simp] theorem reviewHolds_depth : (reviewHolds s).depth = s.depth := rfl
@[simp] theorem reviewHolds_align : (reviewHolds s).align = s.align := rfl
@[simp] theorem reviewHolds_drives : (reviewHolds s).drives = s.drives := rfl
@[simp] theorem reviewHolds_plates : (reviewHolds s).plates = s.plates := rfl
@[simp] theorem reviewHolds_ret : (reviewHolds s).ret = s.ret := rfl
@[simp] theorem reviewHolds_demand : (reviewHolds s).demand = s.demand := rfl
@[simp] theorem reviewHolds_links : (reviewHolds s).links = s.links := rfl
@[simp] theorem reviewHolds_archive : (reviewHolds s).archive = s.archive := rfl
@[simp] theorem reviewHolds_draws : (reviewHolds s).draws = s.draws := rfl
@[simp] theorem reviewHolds_pending : (reviewHolds s).pending = s.pending := rfl

/-! ## `invalidateHolds` -/

@[simp] theorem invalidateHolds_resetLine (ks : List Nat) : (invalidateHolds ks s).resetLine = s.resetLine := rfl
@[simp] theorem invalidateHolds_clock (ks : List Nat) : (invalidateHolds ks s).clock = s.clock := rfl
@[simp] theorem invalidateHolds_panel (ks : List Nat) : (invalidateHolds ks s).panel = s.panel := rfl
@[simp] theorem invalidateHolds_geometry (ks : List Nat) : (invalidateHolds ks s).geometry = s.geometry := rfl
@[simp] theorem invalidateHolds_acq (ks : List Nat) : (invalidateHolds ks s).acq = s.acq := rfl
@[simp] theorem invalidateHolds_depth (ks : List Nat) : (invalidateHolds ks s).depth = s.depth := rfl
@[simp] theorem invalidateHolds_align (ks : List Nat) : (invalidateHolds ks s).align = s.align := rfl
@[simp] theorem invalidateHolds_drives (ks : List Nat) : (invalidateHolds ks s).drives = s.drives := rfl
@[simp] theorem invalidateHolds_plates (ks : List Nat) : (invalidateHolds ks s).plates = s.plates := rfl
@[simp] theorem invalidateHolds_ret (ks : List Nat) : (invalidateHolds ks s).ret = s.ret := rfl
@[simp] theorem invalidateHolds_demand (ks : List Nat) : (invalidateHolds ks s).demand = s.demand := rfl
@[simp] theorem invalidateHolds_links (ks : List Nat) : (invalidateHolds ks s).links = s.links := rfl
@[simp] theorem invalidateHolds_archive (ks : List Nat) : (invalidateHolds ks s).archive = s.archive := rfl
@[simp] theorem invalidateHolds_draws (ks : List Nat) : (invalidateHolds ks s).draws = s.draws := rfl
@[simp] theorem invalidateHolds_pending (ks : List Nat) : (invalidateHolds ks s).pending = s.pending := rfl

/-! ## `clearAccumulator` -/

@[simp] theorem clearAccumulator_resetLine : (clearAccumulator s).resetLine = s.resetLine := rfl
@[simp] theorem clearAccumulator_clock : (clearAccumulator s).clock = s.clock := rfl
@[simp] theorem clearAccumulator_panel : (clearAccumulator s).panel = s.panel := rfl
@[simp] theorem clearAccumulator_geometry : (clearAccumulator s).geometry = s.geometry := rfl
@[simp] theorem clearAccumulator_acq : (clearAccumulator s).acq = s.acq := rfl
@[simp] theorem clearAccumulator_depth : (clearAccumulator s).depth = s.depth := rfl
@[simp] theorem clearAccumulator_align : (clearAccumulator s).align = s.align := rfl
@[simp] theorem clearAccumulator_drives : (clearAccumulator s).drives = s.drives := rfl
@[simp] theorem clearAccumulator_plates : (clearAccumulator s).plates = s.plates := rfl
@[simp] theorem clearAccumulator_ret : (clearAccumulator s).ret = s.ret := rfl
@[simp] theorem clearAccumulator_demand : (clearAccumulator s).demand = s.demand := rfl
@[simp] theorem clearAccumulator_links : (clearAccumulator s).links = s.links := rfl
@[simp] theorem clearAccumulator_archive : (clearAccumulator s).archive = s.archive := rfl
@[simp] theorem clearAccumulator_draws : (clearAccumulator s).draws = s.draws := rfl
@[simp] theorem clearAccumulator_pending : (clearAccumulator s).pending = s.pending := rfl

/-! ## `recomputeLimit` -/

@[simp] theorem recomputeLimit_resetLine : (recomputeLimit s).resetLine = s.resetLine := rfl
@[simp] theorem recomputeLimit_clock : (recomputeLimit s).clock = s.clock := rfl
@[simp] theorem recomputeLimit_panel : (recomputeLimit s).panel = s.panel := rfl
@[simp] theorem recomputeLimit_geometry : (recomputeLimit s).geometry = s.geometry := rfl
@[simp] theorem recomputeLimit_acq : (recomputeLimit s).acq = s.acq := rfl
@[simp] theorem recomputeLimit_depth : (recomputeLimit s).depth = s.depth := rfl
@[simp] theorem recomputeLimit_table : (recomputeLimit s).table = s.table := rfl
@[simp] theorem recomputeLimit_align : (recomputeLimit s).align = s.align := rfl
@[simp] theorem recomputeLimit_drives : (recomputeLimit s).drives = s.drives := rfl
@[simp] theorem recomputeLimit_plates : (recomputeLimit s).plates = s.plates := rfl
@[simp] theorem recomputeLimit_demand : (recomputeLimit s).demand = s.demand := rfl
@[simp] theorem recomputeLimit_links : (recomputeLimit s).links = s.links := rfl
@[simp] theorem recomputeLimit_archive : (recomputeLimit s).archive = s.archive := rfl
@[simp] theorem recomputeLimit_draws : (recomputeLimit s).draws = s.draws := rfl
@[simp] theorem recomputeLimit_pending : (recomputeLimit s).pending = s.pending := rfl

/-! ## `recomputeCapacity` -/

@[simp] theorem recomputeCapacity_resetLine : (recomputeCapacity s).resetLine = s.resetLine := rfl
@[simp] theorem recomputeCapacity_clock : (recomputeCapacity s).clock = s.clock := rfl
@[simp] theorem recomputeCapacity_panel : (recomputeCapacity s).panel = s.panel := rfl
@[simp] theorem recomputeCapacity_geometry : (recomputeCapacity s).geometry = s.geometry := rfl
@[simp] theorem recomputeCapacity_acq : (recomputeCapacity s).acq = s.acq := rfl
@[simp] theorem recomputeCapacity_depth : (recomputeCapacity s).depth = s.depth := rfl
@[simp] theorem recomputeCapacity_table : (recomputeCapacity s).table = s.table := rfl
@[simp] theorem recomputeCapacity_align : (recomputeCapacity s).align = s.align := rfl
@[simp] theorem recomputeCapacity_drives : (recomputeCapacity s).drives = s.drives := rfl
@[simp] theorem recomputeCapacity_plates : (recomputeCapacity s).plates = s.plates := rfl
@[simp] theorem recomputeCapacity_demand : (recomputeCapacity s).demand = s.demand := rfl
@[simp] theorem recomputeCapacity_links : (recomputeCapacity s).links = s.links := rfl
@[simp] theorem recomputeCapacity_archive : (recomputeCapacity s).archive = s.archive := rfl
@[simp] theorem recomputeCapacity_draws : (recomputeCapacity s).draws = s.draws := rfl
@[simp] theorem recomputeCapacity_pending : (recomputeCapacity s).pending = s.pending := rfl

end Sys2Proof.Machine
end

