-- ==== Sys2Proof/Laws/Links.lean ====
section
/-! SUPPORT. The links: what raising a flag, the feed governor and the request engine do, each said once in the terms
of Safety.lean (`Raised`, `LinksKept`, `Governed`, `Answered`). -/

namespace Sys2Proof.Machine

open Sys2Proof.Safety

/-! ## Flag lists -/

theorem foldl_or (fs : List Flag) (x : FlagSet) :
    fs.foldl (fun acc f => acc ||| f.only) x = x ||| flagsOfList fs := by
  unfold flagsOfList
  induction fs generalizing x with
  | nil => simp
  | cons f fs ih =>
    simp only [List.foldl_cons]
    rw [ih, ih (0 ||| f.only)]
    simp [BitVec.or_assoc]

@[simp] theorem flagsOfList_nil : flagsOfList [] = 0 := rfl

@[simp] theorem flagsOfList_cons (f : Flag) (fs : List Flag) :
    flagsOfList (f :: fs) = f.only ||| flagsOfList fs := by
  have := foldl_or fs (0 ||| f.only)
  simpa [flagsOfList] using this

@[simp] theorem flagsOfList_append (fs gs : List Flag) :
    flagsOfList (fs ++ gs) = flagsOfList fs ||| flagsOfList gs := by
  induction fs with
  | nil => simp
  | cons f fs ih => simp [ih, BitVec.or_assoc]

/-! ## Links one by one -/

theorem setLink_link (s : State) (l k : Link) (x : LinkState) :
    (s.setLink l x).link k = if k = l then x else s.link k := by
  cases l <;> cases k <;> rfl

@[simp] theorem setLink_turn (s : State) (l : Link) (x : LinkState) : (s.setLink l x).links.turn = s.links.turn := by
  cases l <;> rfl

@[simp] theorem setLink_levelZeroGrants (s : State) (l : Link) (x : LinkState) :
    (s.setLink l x).links.levelZeroGrants = s.links.levelZeroGrants := by
  cases l <;> rfl

@[simp] theorem setLink_restarting (s : State) (l : Link) (x : LinkState) :
    (s.setLink l x).links.restarting = s.links.restarting := by
  cases l <;> rfl

@[simp] theorem raise_link (f : Flag) (s : State) (l : Link) : (raise f s).link l = (s.link l).raise f := by
  cases l <;> rfl

/-- A link is decided by the links. -/
theorem link_congr {s t : State} (h : t.links = s.links) (l : Link) : t.link l = s.link l := by
  cases l <;> simp [State.link, h]

/-! ## Raising -/

theorem linksKept_refl {s t : State} (h : t.links = s.links) : LinksKept [] s t := by
  refine ⟨fun l => by simp [link_congr h], by rw [h], by rw [h], by rw [h], fun l => ?_⟩
  rw [link_congr h]

theorem linksKept_trans {fs gs : List Flag} {s t u : State} (h : LinksKept fs s t) (g : LinksKept gs t u) :
    LinksKept (fs ++ gs) s u := by
  obtain ⟨hr, h1, h2, h3, hl⟩ := h
  obtain ⟨gr, g1, g2, g3, gl⟩ := g
  refine ⟨fun l => ?_, by rw [g1, h1], by rw [g2, h2], by rw [g3, h3], fun l => ?_⟩
  · rw [gr l, hr l]; simp [BitVec.or_assoc]
  · rw [gl l, hl l]

/-- Which flags were raised is all that counts of a list of flags. -/
theorem linksKept_flags {fs gs : List Flag} {s t : State} (h : LinksKept fs s t)
    (e : flagsOfList fs = flagsOfList gs) : LinksKept gs s t :=
  ⟨fun l => by rw [h.1 l, e], h.2⟩

theorem linksKept_congr {fs : List Flag} {s t s' t' : State} (h : LinksKept fs s t) (hs : s'.links = s.links)
    (ht : t'.links = t.links) : LinksKept fs s' t' := by
  have := linksKept_trans (linksKept_trans (linksKept_refl hs.symm) h) (linksKept_refl ht)
  simpa using this

theorem raise_kept (f : Flag) (s : State) : LinksKept [f] s (raise f s) := by
  refine ⟨fun l => ?_, rfl, rfl, rfl, fun l => ?_⟩
  · rw [raise_link]; simp [LinkState.raise, FlagSet.with]
  · rw [raise_link]; rfl

theorem raiseIf_kept (c : Bool) (f : Flag) (s : State) : LinksKept (if c then [f] else []) s (raiseIf c f s) := by
  cases c
  · exact linksKept_refl rfl
  · exact raise_kept f s

/-! ## The feed governor -/

/-- The line is asserted exactly while the set is not empty. -/
theorem any_eq (r : HoldReasons) : r.any = decide (r ≠
    { panel := false, reference := false, ret := false, driveA := false, driveB := false, wheel := false }) := by
  obtain ⟨a, b, c, d, e, f, g, h, i, j⟩ := r
  revert a b c d e f g h i j
  decide

/-- All that the feed governor does (R47, R48). -/
theorem govern_spec (g : HoldReasons → HoldReasons) (s : State) :
    govern g s = { s with depth := Governed s.depth (g s.depth.reasons), links := (govern g s).links }
      ∧ LinksKept (holdChange s (govern g s)) s (govern g s) := by
  have hd : (govern g s).depth = Governed s.depth (g s.depth.reasons) := by
    unfold govern Governed
    rw [raiseIf_depth, any_eq]
  constructor
  · rw [← hd]; simp [govern, raiseIf]; split <;> rfl
  · have hk := raiseIf_kept ((g s.depth.reasons).any != s.depth.feedHold) .feedHold
      { s with depth := { s.depth with reasons := g s.depth.reasons, feedHold := (g s.depth.reasons).any } }
    have hh : holdChange s (govern g s)
        = if ((g s.depth.reasons).any != s.depth.feedHold) then [.feedHold] else [] := by
      unfold holdChange
      rw [hd]
      simp only [Governed, ← any_eq]
      cases s.depth.feedHold <;> cases (g s.depth.reasons).any <;> rfl
    rw [hh]
    exact linksKept_congr hk rfl rfl

@[simp] theorem govern_depth (g : HoldReasons → HoldReasons) (s : State) :
    (govern g s).depth = Governed s.depth (g s.depth.reasons) := by
  rw [(govern_spec g s).1]

/-! ## Raising as one update of the links -/

/-- The links with these flags set in all three flag sets. -/
def raisedLinks (x : FlagSet) (n : Links) : Links :=
  { n with
    cab := { n.cab with flags := n.cab.flags ||| x }
    plant := { n.plant with flags := n.plant.flags ||| x }
    record := { n.record with flags := n.record.flags ||| x } }

@[simp] theorem raisedLinks_zero (n : Links) : raisedLinks 0#17 n = n := by simp [raisedLinks]

@[simp] theorem raisedLinks_raisedLinks (x y : FlagSet) (n : Links) :
    raisedLinks x (raisedLinks y n) = raisedLinks (y ||| x) n := by
  simp [raisedLinks, BitVec.or_assoc]

@[simp] theorem raise_links (f : Flag) (s : State) : (raise f s).links = raisedLinks f.only s.links := rfl

@[simp] theorem raiseIf_links (c : Bool) (f : Flag) (s : State) :
    (raiseIf c f s).links = raisedLinks (if c then f.only else 0) s.links := by
  cases c
  · simp [raiseIf]
  · rfl

/-- The feed governor raises FEED_HOLD when the line's level changes (R48). -/
@[simp] theorem govern_links (g : HoldReasons → HoldReasons) (s : State) :
    (govern g s).links = raisedLinks
      (if s.depth.feedHold = (Governed s.depth (g s.depth.reasons)).feedHold then 0 else Flag.feedHold.only)
      s.links := by
  unfold govern
  rw [raiseIf_links]
  simp only [Governed, ← any_eq]
  cases s.depth.feedHold <;> cases (g s.depth.reasons).any <;> rfl

/-- Keeping the links but for raised flags, as one equation. -/
theorem linksKept_iff (fs : List Flag) (s t : State) :
    LinksKept fs s t ↔ t.links = raisedLinks (flagsOfList fs) s.links := by
  constructor
  · rintro ⟨hr, h1, h2, h3, hl⟩
    have hc := hl .cab; have hp := hl .plant; have hd := hl .record
    rw [hr] at hc hp hd
    simp only [State.link] at hc hp hd
    generalize t.links = m at *
    obtain ⟨_, _, _, _, _, _⟩ := m
    simp_all [raisedLinks]
  · intro h
    refine ⟨fun l => ?_, by rw [h]; rfl, by rw [h]; rfl, by rw [h]; rfl, fun l => ?_⟩ <;> cases l <;>
      simp [State.link, h, raisedLinks]

/-- The flags of one link after raising. -/
theorem raised_of_links {x : FlagSet} {s t : State} (h : t.links = raisedLinks x s.links) (l : Link) :
    (t.link l).flags = (s.link l).flags ||| x := by
  cases l <;> simp [State.link, h, raisedLinks]

@[simp] theorem flagsOfList_holdChange (s t : State) :
    flagsOfList (holdChange s t) = if s.depth.feedHold = t.depth.feedHold then 0 else Flag.feedHold.only := by
  unfold holdChange; split <;> simp

@[simp] theorem flagsOfList_returnChange (s t : State) :
    flagsOfList (returnChange s t) = if t.ret.state = s.ret.state then 0 else Flag.returnState.only := by
  unfold returnChange; split <;> simp

@[simp] theorem flagsOfList_toleranceChange (s t : State) :
    flagsOfList (toleranceChange s t)
      = if s.table.firstX = t.table.firstX ∧ s.table.firstY = t.table.firstY then 0 else Flag.tolerance.only := by
  unfold toleranceChange; split <;> simp

/-! ## The request engine -/

theorem grant_some {s : State} {l : Link} {f : Frame} (h : grant s = some (l, f)) :
    grantLink s.links = some l ∧ (s.link l).rx.head? = some f := by
  unfold grant at h
  split at h
  · cases h
  · rename_i k hk
    cases hf : (s.link k).rx.head? with
    | none => simp [hf] at h
    | some g =>
      simp only [hf, Option.map_some, Option.some.injEq, Prod.mk.injEq] at h
      obtain ⟨rfl, rfl⟩ := h
      exact ⟨hk, hf⟩

theorem grant_restarting {s : State} {l : Link} {f : Frame} (h : grant s = some (l, f)) :
    s.links.restarting = false := by
  have := (grant_some h).1
  unfold grantLink at this
  cases hr : s.links.restarting
  · rfl
  · simp [hr] at this

/-- A granted request of the right kind goes to the engine. -/
theorem request_granted {kind : Byte} {acc : Access} {body : Link → List Byte → State → State × Answer} {s : State}
    {l : Link} {f : Frame} (h : Granted kind l f s) : request kind acc body s = serve acc l f body s := by
  obtain ⟨hr, hg, hk⟩ := h
  simp [request, unlessReset, hr, hg, hk]

/-- The judgement of the link is that of the request table. -/
theorem linkRefusal_eq (acc : Access) (s : State) (l : Link) : linkRefusal acc s l = barred s.demand.owner l acc := by
  cases acc <;> cases l <;> cases h : s.demand.owner <;> simp [linkRefusal, barred, DemandTable.pumpLink, h]

/-- What taking the head request leaves of the links, and what building the reply then makes of them. -/
theorem buildReply_answered {s t : State} {l : Link} {f : Frame} (a : Answer) {fs : List Flag} {kind : Byte}
    (h : Granted kind l f s) (hk : LinksKept fs (takeHead l s) t) :
    Raised fs s (buildReply l f a t) ∧ Answered l f a (s.link l).mask false s (buildReply l f a t) := by
  have hr := grant_restarting h.2.1
  obtain ⟨h1, h2, h3, h4, h5⟩ := hk
  have e1 : ∀ k, (takeHead l s).link k = if k = l then { s.link l with rx := (s.link l).rx.tail } else s.link k := by
    intro k
    cases l <;> cases k <;> rfl
  have ef : ∀ k, ((takeHead l s).link k).flags = (s.link k).flags := by
    intro k; rw [e1]; split
    · rename_i e; subst e; rfl
    · rfl
  have e2 : ∀ k, (buildReply l f a t).link k = if k = l then
      { t.link l with
        replies := (t.link l).replies ++
          [{ seq := f.seq, kind := f.kind, outcome := a.outcome, reason := a.reason, payload := a.payload
             marks := { alert := (t.link l).alert, overrun := (t.link l).overrun, clamped := a.clamped,
                        truncated := a.truncated } }]
        overrun := false } else t.link k := by
    intro k
    cases l <;> cases k <;> rfl
  have e3 : ∀ k, ((buildReply l f a t).link k).flags = (t.link k).flags := by
    intro k; rw [e2]; split
    · rename_i e; subst e; rfl
    · rfl
  have hl := h5 l
  rw [e1 l, if_pos rfl] at hl
  refine ⟨fun k => by rw [e3, h1 k, ef k], ?_, fun k hk => ?_, ?_, ?_, ?_⟩
  · have ha : ((buildReply l f a t).link l).alert = (t.link l).alert := by rw [e2, if_pos rfl]; rfl
    rw [ha, e3 l, e2 l, if_pos rfl, hl]
  · rw [e3 k, e2 k, if_neg hk, h5 k, e1 k, if_neg hk]
  · have : (buildReply l f a t).links.turn = t.links.turn := by cases l <;> rfl
    rw [this, h2]; cases l <;> rfl
  · have : (buildReply l f a t).links.levelZeroGrants = t.links.levelZeroGrants := by cases l <;> rfl
    rw [this, h3]
    cases l <;> simp only [takeHead, noteGrant, setLink_levelZeroGrants] <;> split <;> rfl
  · have : (buildReply l f a t).links.restarting = t.links.restarting := by cases l <;> rfl
    rw [this, h4]
    have : (takeHead l s).links.restarting = s.links.restarting := by cases l <;> rfl
    rw [this, hr]

/-- All that an allowed request does: its block's rule on the state with the request taken, and the reply. -/
theorem serve_spec {kind : Byte} {acc : Access} {body : Link → List Byte → State → State × Answer} {s u : State}
    {l : Link} {f : Frame} {a : Answer} {fs : List Flag} (h : Granted kind l f s)
    (hb : barred s.demand.owner l acc = none) (ha : (body l f.payload (takeHead l s)).2 = a)
    (hu : (body l f.payload (takeHead l s)).1 = { u with links := (body l f.payload (takeHead l s)).1.links })
    (hk : LinksKept fs (takeHead l s) (body l f.payload (takeHead l s)).1) :
    ∀ t, t = request kind acc body s →
      t = { u with links := t.links } ∧ Raised fs s t ∧ Answered l f a (s.link l).mask false s t := by
  rintro t rfl
  rw [request_granted h]
  have hn : linkRefusal acc (takeHead l s) l = none := by rw [linkRefusal_eq]; simpa using hb
  have e : serve acc l f body s = buildReply l f a (body l f.payload (takeHead l s)).1 := by
    simp only [serve, hn, ha]
  rw [e]
  obtain ⟨hr, hw⟩ := buildReply_answered a h hk
  refine ⟨?_, hr, hw⟩
  generalize hx : (body l f.payload (takeHead l s)).1 = x at hu
  rw [hu]
  cases l <;> rfl

/-- A request that its link may not send is refused, and changes nothing else. -/
theorem serve_barred {kind : Byte} {acc : Access} {body : Link → List Byte → State → State × Answer} {s : State}
    {l : Link} {f : Frame} {r : Reason} (h : Granted kind l f s) (hb : barred s.demand.owner l acc = some r) :
    ∀ t, t = request kind acc body s →
      t = { s with links := t.links } ∧ Raised [] s t
        ∧ Answered l f { outcome := .refused, reason := r } (s.link l).mask false s t := by
  rintro t rfl
  rw [request_granted h]
  have hn : linkRefusal acc (takeHead l s) l = some r := by rw [linkRefusal_eq]; simpa using hb
  have e : serve acc l f body s = buildReply l f (refusal r) (takeHead l s) := by simp only [serve, hn]
  rw [e]
  obtain ⟨hr, hw⟩ := buildReply_answered (refusal r) h (linksKept_refl rfl)
  refine ⟨?_, hr, hw⟩
  cases l <;> rfl

end Sys2Proof.Machine
end

