-- ==== Sys2Proof/Laws/Return.lean ====
section
/-! SUPPORT. Shared arithmetic said in the terms of Safety.lean, and all that entering a return state does. -/

namespace Sys2Proof.Machine

open Sys2Proof.Safety

/-! ## Arithmetic -/

/-- A clamp is a bounded minimum, when the range is not empty. -/
theorem clamp_eq {lo hi : Int} (h : lo ≤ hi) (x : Int) : clamp lo hi x = max lo (min hi x) := by
  unfold clamp; split <;> [skip; split] <;> omega

theorem clamp_mem {lo hi : Int} (h : lo ≤ hi) (x : Int) : lo ≤ clamp lo hi x ∧ clamp lo hi x ≤ hi := by
  unfold clamp; split <;> [skip; split] <;> omega

/-- A value within the range is left alone. -/
theorem clamp_id {lo hi x : Int} (h : lo ≤ x) (g : x ≤ hi) : clamp lo hi x = x := by
  unfold clamp; split <;> [skip; split] <;> omega

/-- The rate step of R90 and R107. -/
theorem stepToward_stepTo (x goal step : Int) : StepTo x goal step (stepToward x goal step) := by
  unfold StepTo stepToward
  refine ⟨fun h => by simp [h], fun h => ?_⟩
  have : ¬|goal - x| ≤ step := by omega
  constructor <;> intro g <;> simp [this] <;> omega

/-- A rate step stays between where it starts and where it goes. -/
theorem stepToward_mem {x goal step lo hi : Int} (h1 : lo ≤ x) (h2 : x ≤ hi) (g1 : lo ≤ goal) (g2 : goal ≤ hi)
    (h0 : 0 ≤ step) : lo ≤ stepToward x goal step ∧ stepToward x goal step ≤ hi := by
  unfold stepToward
  split
  · exact ⟨g1, g2⟩
  · rename_i h
    split
    · rw [abs_of_pos (by omega)] at h; omega
    · rw [abs_of_nonpos (by omega)] at h; omega

/-- Division rounded half away from zero. -/
theorem roundAway_roundsTo (a : Int) {b : Int} (hb : 0 < b) : RoundsTo a b (roundAway a b) := by
  unfold RoundsTo roundAway
  split
  · rename_i ha
    have h1 := Int.emod_add_mul_ediv (2 * a + b) (2 * b)
    have h2 := Int.emod_nonneg (2 * a + b) (by omega : 2 * b ≠ 0)
    have h3 := Int.emod_lt_of_pos (2 * a + b) (by omega : 0 < 2 * b)
    have hq : 0 ≤ (2 * a + b) / (2 * b) := Int.ediv_nonneg (by omega) (by omega)
    generalize (2 * a + b) / (2 * b) = q at *
    have e : 2 * b * q = 2 * (q * b) := by ring
    have hp : 0 ≤ q * b := Int.mul_nonneg hq (by omega)
    rw [e] at h1
    generalize q * b = p at *
    rw [abs_of_nonneg ha, abs_of_nonneg hp]
    rcases le_total 0 (p - a) with h | h
    · rw [abs_of_nonneg h]; constructor <;> intros <;> omega
    · rw [abs_of_nonpos h]; constructor <;> intros <;> omega
  · rename_i ha
    have h1 := Int.emod_add_mul_ediv (2 * -a + b) (2 * b)
    have h2 := Int.emod_nonneg (2 * -a + b) (by omega : 2 * b ≠ 0)
    have h3 := Int.emod_lt_of_pos (2 * -a + b) (by omega : 0 < 2 * b)
    have hq : 0 ≤ (2 * -a + b) / (2 * b) := Int.ediv_nonneg (by omega) (by omega)
    generalize (2 * -a + b) / (2 * b) = q at *
    have e : 2 * b * q = 2 * (q * b) := by ring
    have e2 : -q * b = -(q * b) := by ring
    have hp : 0 ≤ q * b := Int.mul_nonneg hq (by omega)
    rw [e] at h1
    rw [e2]
    generalize q * b = p at *
    rw [abs_of_neg (by omega : a < 0), abs_of_nonpos (by omega : -p ≤ 0)]
    rcases le_total 0 (-p - a) with h | h
    · rw [abs_of_nonneg h]; constructor <;> intros <;> omega
    · rw [abs_of_nonpos h]; constructor <;> intros <;> omega

/-! ## Capacity, allowance and limit (R139 to R141) -/

@[simp] theorem holdsFeed_eq (st : ReturnState) : st.holdsFeed = holdsReturn st := by cases st <;> rfl

theorem recomputeLimit_agrees (s : State) : LimitAgrees s.demand (recomputeLimit s).ret := by
  unfold LimitAgrees recomputeLimit limitIn holdsReturn
  cases s.ret.state <;> simp

theorem recompute_agrees (s : State) (b : ReturnBalance) (hc : b.capacity = capacityOf s.geometry s.demand.pump b.report)
    (ha : b.allowance = allowanceOf s.geometry s.demand.pump b.capacity) (hl : LimitAgrees s.demand b) :
    BalanceAgrees s.geometry s.demand b := by
  refine ⟨fun h => by rw [hc, h]; rfl, fun r h => ⟨fun g => ?_, fun g1 g2 => ?_⟩, ?_, hl⟩
  · rw [hc, h]; simp [capacityOf, g]
  · have : ¬(s.demand.pump.densityLimit ≤ r.supplyDensity ∨ s.geometry.groundDensity ≤ r.supplyDensity) := by omega
    rw [hc, h]; simp [capacityOf, this]
  · rw [ha]; unfold allowanceOf Geometry.area; rw [clamp_eq (by norm_num)]

/-! ## Entering a return state (R143 to R149) -/

/-- All that entering a return state does to the Return Balance Unit. -/
theorem enterReturn_ret (st : ReturnState) (s : State) :
    (enterReturn st s).ret = if st = s.ret.state then s.ret else
      { s.ret with
        state := st
        limit := limitIn s.demand { s.ret with state := st }
        confirm := if st = .stopped ∨ st = .blocked then none else s.ret.confirm
        recovery := if st = .stopped then none else s.ret.recovery } := by
  unfold enterReturn
  split
  · rfl
  · simp [recomputeLimit, limitIn]

@[simp] theorem enterReturn_depth (st : ReturnState) (s : State) :
    (enterReturn st s).depth = afterReturn s.depth s.ret.state st := by
  unfold enterReturn afterReturn
  split
  · rfl
  · simp

/-- RETURN_STATE is raised at a change, and FEED_HOLD where the line's level changes. -/
@[simp] theorem enterReturn_links (st : ReturnState) (s : State) :
    (enterReturn st s).links = raisedLinks
      ((if st = s.ret.state then 0 else Flag.returnState.only)
        ||| if s.depth.feedHold = (afterReturn s.depth s.ret.state st).feedHold then 0 else Flag.feedHold.only)
      s.links := by
  unfold enterReturn afterReturn
  split
  · simp
  · simp
    rfl

/-- Everything else is left alone. -/
theorem enterReturn_spec (st : ReturnState) (s : State) :
    enterReturn st s = { s with
      ret := (enterReturn st s).ret, depth := (enterReturn st s).depth, links := (enterReturn st s).links } := by
  unfold enterReturn
  split
  · rfl
  · apply state_ext <;> simp

@[simp] theorem enterReturn_resetLine (st : ReturnState) (s : State) : (enterReturn st s).resetLine = s.resetLine := by
  rw [enterReturn_spec]

@[simp] theorem enterReturn_clock (st : ReturnState) (s : State) : (enterReturn st s).clock = s.clock := by
  rw [enterReturn_spec]

@[simp] theorem enterReturn_panel (st : ReturnState) (s : State) : (enterReturn st s).panel = s.panel := by
  rw [enterReturn_spec]

@[simp] theorem enterReturn_geometry (st : ReturnState) (s : State) : (enterReturn st s).geometry = s.geometry := by
  rw [enterReturn_spec]

@[simp] theorem enterReturn_acq (st : ReturnState) (s : State) : (enterReturn st s).acq = s.acq := by
  rw [enterReturn_spec]

@[simp] theorem enterReturn_table (st : ReturnState) (s : State) : (enterReturn st s).table = s.table := by
  rw [enterReturn_spec]

@[simp] theorem enterReturn_align (st : ReturnState) (s : State) : (enterReturn st s).align = s.align := by
  rw [enterReturn_spec]

@[simp] theorem enterReturn_drives (st : ReturnState) (s : State) : (enterReturn st s).drives = s.drives := by
  rw [enterReturn_spec]

@[simp] theorem enterReturn_plates (st : ReturnState) (s : State) : (enterReturn st s).plates = s.plates := by
  rw [enterReturn_spec]

@[simp] theorem enterReturn_demand (st : ReturnState) (s : State) : (enterReturn st s).demand = s.demand := by
  rw [enterReturn_spec]

@[simp] theorem enterReturn_archive (st : ReturnState) (s : State) : (enterReturn st s).archive = s.archive := by
  rw [enterReturn_spec]

@[simp] theorem enterReturn_draws (st : ReturnState) (s : State) : (enterReturn st s).draws = s.draws := by
  rw [enterReturn_spec]

@[simp] theorem enterReturn_pending (st : ReturnState) (s : State) : (enterReturn st s).pending = s.pending := by
  rw [enterReturn_spec]

@[simp] theorem enterReturn_state (st : ReturnState) (s : State) : (enterReturn st s).ret.state = st := by
  rw [enterReturn_ret]; split
  · rename_i h; exact h.symm
  · rfl

end Sys2Proof.Machine
end

