-- ==== Sys2Proof/Laws/Drive.lean ====
section
/-! SUPPORT. The operations of the drives, the plates and the alignment, each said once in the terms of Safety. -/

namespace Sys2Proof.Machine

open Sys2Proof.Safety

/-! ## Access -/

@[simp] theorem setWheel_wheel (s : State) (w v : WheelId) (d : WheelDrive) :
    (s.setWheel w d).wheel v = if v = w then d else s.wheel v := by
  cases w <;> cases v <;> rfl

@[simp] theorem setMotor_motor (s : State) (d e : DriveId) (m : Motor) :
    (s.setMotor d m).motor e = if e = d then m else s.motor e := by
  cases d <;> cases e <;> rfl

@[simp] theorem setPlate_plate (s : State) (i j : PlateId) (p : Plate) :
    (s.setPlate i p).plate j = if j = i then p else s.plate j := by
  cases i <;> cases j <;> rfl

/-! ## Counters -/

/-- Adding 1 to a counter that holds a value of its range. -/
theorem tick_eq {c : Counter} (h : c.value ≤ 16777215) : c.tick = (tickOf c, notices c) := by
  unfold Counter.tick tickOf notices counterMax counterNotice
  rcases c with ⟨v, n⟩
  change v ≤ 16777215 at h
  rcases eq_or_lt_of_le h with rfl | g
  · cases n <;> rfl
  · have e : min (v + 1) 16777215 = v + 1 := by omega
    by_cases q : v + 1 = 12582912
    · obtain rfl : v = 12582911 := by omega
      cases n <;> rfl
    · have q' : (v + 1 == 12582912) = false := by simpa using q
      simp only [e, q']
      rw [if_neg (by omega)]
      simp [q]

theorem zeroTallies_eq (d : Drives) : zeroTallies d = TalliesZeroed d := rfl

/-! ## Targets and duty -/

theorem effectiveBase_eq (s : State) (w : WheelId) : effectiveBase s w = baseSpeedFor s w := by
  cases w <;> simp [effectiveBase, baseSpeedFor, otherWheel, State.wheel]

/-- The composed target, for a differential within half the range. -/
theorem composedTarget_spec (w : WheelId) (e : Int) {diff : Int} (h : |diff| ≤ 200) :
    TargetFrom w e diff (composedTarget w e diff) := by
  refine ⟨fun g => by simp [composedTarget, g], fun g => ?_⟩
  cases w <;> simp only [composedTarget, g, if_false] <;> rw [clamp_eq (by omega)]
  rfl

/-- The composed target lies in the range of a wheel target. -/
theorem composedTarget_mem (w : WheelId) (e : Int) {diff : Int} (h : |diff| ≤ 200) :
    0 ≤ composedTarget w e diff ∧ composedTarget w e diff ≤ 400 := by
  unfold composedTarget
  split
  · omega
  · have g := clamp_mem (lo := |diff|) (hi := 400 - |diff|) (by omega) e
    have a := abs_le.mp (le_refl |diff|)
    cases w <;> simp only <;> omega

theorem dutyTerms_spec (t : TuningGroup) (feedforward : Int) (m : Motor) :
    DutyAgrees t feedforward m (dutyTerms t feedforward m) := by
  unfold DutyAgrees dutyTerms
  simp only [clamp_eq (show (0 : Int) ≤ 1000 by norm_num), clamp_eq (show (-16000 : Int) ≤ 16000 by norm_num)]
  exact ⟨trivial, fun h => if_pos h, fun h => if_neg h⟩

/-- The duty stage keeps the duty and the integrator in their ranges. -/
theorem dutyStage_mem (t : TuningGroup) (closed : Bool) (feedforward : Int) {m : Motor} (h1 : -16000 ≤ m.integ)
    (h2 : m.integ ≤ 16000) :
    0 ≤ (dutyStage t closed feedforward m).computed ∧ (dutyStage t closed feedforward m).computed ≤ 1000
      ∧ -16000 ≤ (dutyStage t closed feedforward m).integ ∧ (dutyStage t closed feedforward m).integ ≤ 16000 := by
  unfold dutyStage dutyTerms
  split
  · simp
  · refine ⟨(clamp_mem (by norm_num) _).1, (clamp_mem (by norm_num) _).2, ?_⟩
    simp only
    split
    · exact ⟨h1, h2⟩
    · exact clamp_mem (by norm_num) _

/-! ## Direction and the governor -/

theorem wantedDir_eq (s : State) (d : WheelDrive) : wantedDir s.demand.wheel d = wantedIn s d.state d.dirOut := by
  unfold wantedDir wantedIn
  cases d.state <;> rfl

theorem withDirStatus_eq (s : State) (d : WheelDrive) : withDirStatus s.demand.wheel d
    = { d with dirStatus := statusFor (wantedIn s d.state d.dirOut) d.dirOut } := by
  unfold withDirStatus statusFor
  rw [wantedDir_eq]
  cases d.dirOut <;> simp [Dir.status, plainStatus]

theorem watched_iff (d : WheelDrive) : d.watched = true ↔ Watched d := by
  simp [WheelDrive.watched, Watched]

/-- What publishing a wheel drive changes: the drive, and the governor's reason for it with the line and FEED_HOLD. -/
theorem publishWheel_eq (w : WheelId) (d : WheelDrive) (s : State) : publishWheel w d s
    = govern (driveReason w (decide (¬(d.state = .running ∧ d.dirStatus = .forward)))) (s.setWheel w (stopUnwatched d))
    := by
  unfold publishWheel
  have e : (stopUnwatched d).holdsFeed = decide (¬(d.state = .running ∧ d.dirStatus = .forward)) := by
    unfold stopUnwatched WheelDrive.holdsFeed
    split <;> simp
  cases w <;> simp only [e]
  all_goals rfl

/-! ## Watches and bands -/

theorem watch_spec (c : Bool) (t : Timer) (start : Nat) : Watch (c = true) t (watch c t start) start := by
  cases c <;> cases t <;> simp [Watch, watch]

theorem bandOf_inBand (counts : Int) (k : Nat) : InBand ((counts * 100).tdiv 4095) k ↔ bandOf counts = k := by
  unfold InBand bandOf
  simp only
  repeat' split
  all_goals omega

/-! ## Plates -/

/-- The stroke in percent is the nearest whole one. -/
theorem strokeOf_nearest {v : Int} (h : 0 ≤ v) : |2 * (strokeOf v * 4095 - v * 100)| ≤ 4095 := by
  unfold strokeOf
  rw [Int.tdiv_eq_ediv_of_nonneg (by omega), abs_le]
  omega

/-- The stroke lies in 0 … 100 for every reading of its channel. -/
theorem strokeOf_mem {v : Int} (h : 0 ≤ v) (g : v ≤ 4095) : 0 ≤ strokeOf v ∧ strokeOf v ≤ 100 := by
  unfold strokeOf
  rw [Int.tdiv_eq_ediv_of_nonneg (by omega)]
  omega

theorem enter_outputs {p : Plate} (st : PlateState) (h1 : 0 ≤ p.effective) (h2 : p.effective ≤ 100) :
    PlateOutputs (p.enter st) := by
  simp [PlateOutputs, Plate.enter, h1, h2]

theorem judgePlate_spec {band : Int} (q demand : Int) (due : Nat) {p : Plate} (hb : 0 ≤ band) (h : p.state ≠ .fault) :
    Judged band q demand due p (judgePlate band q demand due p) := by
  unfold Judged judgePlate
  cases e : p.state <;> simp only [e] at h ⊢
  · by_cases a : q < demand - band
    · have x1 : ¬demand + band < q := by omega
      have x2 : ¬demand - band ≤ q := by omega
      simp [a, x1, x2, Plate.start, Plate.enter]
    · by_cases b : demand + band < q
      · have x2 : ¬q ≤ demand + band := by omega
        simp [a, b, x2, Plate.start, Plate.enter]
      · simp [a, b, Plate.enter]
  · by_cases a : demand ≤ q
    · simp [a, Plate.enter]
    · simp [a]
  · by_cases a : q ≤ demand
    · simp [a, Plate.enter]
    · simp [a]
  · exact absurd rfl h

/-! ## Alignment -/

theorem rawDemand_agrees (t : TuningGroup) (h : 0 ≤ t.dMax) (g1 : 0 ≤ t.gX) (g2 : 0 ≤ t.dbX) (ex : Int) :
    RawAgrees t ex (clampDiff t (rawDemand t ex)) := by
  unfold RawAgrees clampDiff rawDemand
  rw [clamp_eq (by omega)]
  have n : t.dbX < |ex| → 0 ≤ ((|ex| - t.dbX) * t.gX).tdiv 1000 := fun a =>
    Int.tdiv_nonneg (Int.mul_nonneg (by omega) g1) (by norm_num)
  refine ⟨fun a => ?_, fun a b => ?_, fun a b => ?_⟩
  · rw [if_pos a]; omega
  · have := n a
    have p : 0 < ex := by
      rcases eq_or_lt_of_le b with rfl | c
      · simp at a; omega
      · exact c
    rw [if_neg (by omega)]
    unfold withSign
    rw [if_pos (by omega)]; omega
  · have := n a
    rw [if_neg (by omega)]
    unfold withSign
    rw [if_neg (by omega)]; omega

theorem gained_agrees {x band gain limit : Int} (divisor : Int) :
    GainedDemand x band gain divisor limit
      (if |x| ≤ band then 0 else withSign x (min limit (((|x| - band) * gain).tdiv divisor))) := by
  refine ⟨fun a => by rw [if_pos a], fun a b => ?_, fun a b => ?_⟩
  · rw [if_neg (by omega)]; simp [withSign, Int.not_lt.mpr b]
  · rw [if_neg (by omega)]; simp [withSign, b]

end Sys2Proof.Machine
end

