-- ==== Sys2Proof/Laws/Groups.lean ====
section
/-! SUPPORT. The guards of an event, the geometry check, the floor and the count, the group writes and the archive's
slots, each said once in the terms of Safety. -/

namespace Sys2Proof.Machine

open Sys2Proof.Safety

/-! ## Guards -/

@[simp] theorem unlessReset_released {s : State} (h : s.resetLine = false) (f : State → State) :
    unlessReset s f = f s := by simp [unlessReset, h]

@[simp] theorem unlessReset_asserted {s : State} (h : s.resetLine = true) (f : State → State) :
    unlessReset s f = s := by simp [unlessReset, h]

@[simp] theorem onExpiry_some (due : Nat) (s : State) (f : State → State) :
    onExpiry (some due) s f = f { s with clock := max s.clock due } := rfl

@[simp] theorem onExpiry_none (s : State) (f : State → State) : onExpiry none s f = s := rfl

/-! ## Geometry -/

theorem stations_pos (g : Geometry) : 0 < g.stations := Nat.succ_pos _

theorem badDesign_iff {g : Geometry} : badDesign g = false ↔
    g.start ≤ g.design ∧ g.design - g.start ≤ 200000 ∧ g.stations ≤ 1024 := by
  simp only [badDesign, Bool.or_eq_false_iff, decide_eq_false_iff_not, not_lt]
  simp only [maxSpan, maxStations, and_assoc]

theorem stations_eq {g : Geometry} (h : g.start ≤ g.design) (hs : 0 ≤ g.spacing) :
    (g.stations : Int) = (g.design - g.start) / g.spacing + 1 := by
  have : 0 ≤ (g.design - g.start) / g.spacing := Int.ediv_nonneg (by omega) hs
  unfold Geometry.stations
  omega

theorem ite_some_eq_none {c : Bool} {n : Nat} {o : Option Nat} :
    (if c = true then some n else o) = none ↔ c = false ∧ o = none := by
  cases c <;> simp

theorem outside_iff {lo hi x : Int} : outside lo hi x = false ↔ lo ≤ x ∧ x ≤ hi := by
  simp only [outside, Bool.or_eq_false_iff, decide_eq_false_iff_not, not_lt]

/-- A geometry record that passes the check has every field in range. -/
theorem fieldOk_of_check {g : Geometry} (h : firstBadField g = none) (n : Nat) : FieldOk g n := by
  unfold firstBadField at h
  simp only [ite_some_eq_none, outside_iff] at h
  obtain ⟨a1, a2, a3, a4, a5, a6, a7, a8, a9, a10, a11, a12, a13, -⟩ := h
  have d := badDesign_iff.mp a3
  have e := stations_eq d.1 (by omega)
  unfold FieldOk
  split <;> first | trivial | omega

/-! ## Floor and count -/

theorem floorAt_spec (g : Geometry) (um : Int) : IsFloor g um (floorAt g um) := by
  unfold floorAt
  cases e : (List.range g.stations).find? fun k => um < g.depthOf k * 1000 with
  | none =>
    rw [List.find?_eq_none] at e
    refine ⟨le_rfl, fun j hj => ?_, fun n => absurd n (lt_irrefl _)⟩
    have := e j (List.mem_range.mpr hj)
    rw [decide_eq_true_eq] at this
    exact not_lt.mp this
  | some k =>
    have hk := List.mem_range.mp (List.mem_of_find?_eq_some e)
    have p := List.find?_some e
    refine ⟨hk.le, fun j hj => ?_, fun _ => of_decide_eq_true p⟩
    rw [List.find?_range_eq_some] at e
    have := e.2.2 j hj
    rw [Bool.not_eq_true'] at this
    exact not_lt.mp (of_decide_eq_false this)

theorem nearestCount_spec {g : Geometry} (h : 0 < g.encoderStep) (um : Int) :
    IsNearest g.encoderStep um (nearestCount g um) := by
  have e : nearestCount g um = (2 * um + g.encoderStep) / (2 * g.encoderStep) := by
    unfold nearestCount; exact Int.fdiv_eq_ediv_of_nonneg _ (by omega)
  have m1 := Int.emod_add_mul_ediv (2 * um + g.encoderStep) (2 * g.encoderStep)
  have m2 := Int.emod_nonneg (2 * um + g.encoderStep) (show 2 * g.encoderStep ≠ 0 by omega)
  have m3 := Int.emod_lt_of_pos (2 * um + g.encoderStep) (show 0 < 2 * g.encoderStep by omega)
  rw [← e] at m1
  generalize nearestCount g um = n at *
  generalize (2 * um + g.encoderStep) % (2 * g.encoderStep) = r at *
  generalize g.encoderStep = k at *
  have key : 2 * (n * k - um) = k - r := by linarith
  intro c
  rcases lt_trichotomy c n with l | rfl | l
  · have : c * k ≤ n * k - k := by nlinarith
    have a : |n * k - um| ≤ |c * k - um| := by
      rw [abs_le]; constructor
      · have := neg_abs_le (c * k - um); omega
      · have := neg_abs_le (c * k - um); omega
    exact ⟨a, fun _ => l.le⟩
  · exact ⟨le_rfl, fun _ => le_rfl⟩
  · have : n * k + k ≤ c * k := by nlinarith
    have u := le_abs_self (c * k - um)
    have a : |n * k - um| < |c * k - um| := by
      rw [abs_lt]; constructor <;> omega
    exact ⟨a.le, fun q => absurd q a.ne⟩

/-! ## Group writes -/

theorem entriesOf_flatten (es : List (Nat × Int)) (h : ∀ e ∈ es, e.1 < 256 ∧ -2147483648 ≤ e.2 ∧ e.2 ≤ 2147483647) :
    entriesOf es.length ((es.map fun e => BitVec.ofNat 8 e.1 :: field 4 e.2).flatten) = es := by
  induction es with
  | nil => rfl
  | cons e es ih =>
    obtain ⟨h1, h2, h3⟩ := h e (by simp)
    have ih := ih fun x hx => h x (List.mem_cons_of_mem _ hx)
    simp only [List.map_cons, List.flatten_cons, List.length_cons, entriesOf, List.cons_append, List.headD_cons,
      List.drop_succ_cons, List.drop_zero]
    have hl : (field 4 e.2).length = 4 := field_length 4 e.2
    rw [List.take_append_of_le_length (by omega), List.take_of_length_le (by omega),
      signedOf_field_of_mem (by norm_num; omega) (by norm_num; omega), List.drop_append_of_le_length (by omega),
      List.drop_of_length_le (by omega), List.nil_append, ih]
    have t : (BitVec.ofNat 8 e.1).toNat = e.1 := by simp [Nat.mod_eq_of_lt h1]
    rw [t]

theorem flatten_entries_length (es : List (Nat × Int)) :
    ((es.map fun e => BitVec.ofNat 8 e.1 :: field 4 e.2).flatten).length = 5 * es.length := by
  induction es with
  | nil => rfl
  | cons e es ih => simp only [List.map_cons, List.flatten_cons, List.length_append, ih, List.length_cons, field_length]; omega

/-- The checks of a group write let a payload laid out from good entries through. -/
theorem groupEntries_payload {fields : Nat} (hf : fields < 256) {es : List (Nat × Int)} (h : EntriesOk fields es)
    (ok : Entry → Bool) : groupEntries fields ok (groupPayload es) = if es.all ok then .ok es else .error .badValue := by
  obtain ⟨h0, h1, h2, h3⟩ := h
  have hl : 0 < es.length := List.length_pos_of_ne_nil h0
  have t : (BitVec.ofNat 8 es.length).toNat = es.length := by
    rw [BitVec.toNat_ofNat]; exact Nat.mod_eq_of_lt (by omega)
  have e := entriesOf_flatten es fun x hx => ⟨by have := h3 x hx; omega, (h3 x hx).2.2⟩
  unfold groupEntries groupPayload
  simp only [List.headD_cons, t, List.length_cons, flatten_entries_length, List.drop_succ_cons, List.drop_zero, e]
  rw [if_neg (by simp; omega), if_neg (by omega), if_neg]
  rintro (g | g)
  · rw [List.any_eq_true] at g
    obtain ⟨x, hx, g⟩ := g
    have := h3 x hx
    simp at g
    omega
  · exact g h2

/-- Writing a field sets its place in the values of the group, and leaves the others. -/
theorem feed_write_values (g : FeedGroup) {n : Nat} (h : 1 ≤ n) (k : n ≤ 5) (v : Int) :
    (g.write n v).values = g.values.set (n - 1) v := by
  interval_cases n <;> rfl

theorem tuning_write_values (g : TuningGroup) {n : Nat} (h : 1 ≤ n) (k : n ≤ 28) (v : Int) :
    (g.write n v).values = g.values.set (n - 1) v := by
  interval_cases n <;> rfl

theorem pump_write_values (g : PumpGroup) {n : Nat} (h : 1 ≤ n) (k : n ≤ 14) (v : Int) :
    (g.write n v).values = g.values.set (n - 1) v := by
  interval_cases n <;> rfl

/-- A WHEEL field likewise, the direction and the steer mode being 0 or 1. -/
theorem wheel_write_values (g : WheelGroup) {n : Nat} (h : 1 ≤ n) (k : n ≤ 10) {v : Int}
    (ok : n = 2 ∨ n = 3 → v = 0 ∨ v = 1) : (g.write n v).values = g.values.set (n - 1) v := by
  interval_cases n <;> first | rfl | (rcases ok (by simp) with rfl | rfl <;> rfl)

/-- A group write stores each named field clamped, and leaves the others. -/
theorem writeAll_stored {G : Type} {write : G → Nat → Int → G} {values : G → List Int} {ok : Nat × Int → Prop}
    {range : Nat → Int × Int} {fields : Nat} (hr : ∀ n, (range n).1 ≤ (range n).2)
    (hw : ∀ g e, 1 ≤ e.1 → e.1 ≤ fields → ok e → values (write g e.1 e.2) = (values g).set (e.1 - 1) e.2)
    (hl : ∀ g, (values g).length = fields) (es : List (Nat × Int)) (g : G) (hn : (es.map (·.1)).Nodup)
    (he : ∀ e ∈ es, 1 ≤ e.1 ∧ e.1 ≤ fields ∧ ok (clampEntry range e)) :
    Stored range es (values g) (values (writeAll write g (es.map (clampEntry range)))) := by
  unfold writeAll
  induction es generalizing g with
  | nil => exact ⟨rfl, fun i => ⟨fun v h => by simp at h, fun _ => rfl⟩⟩
  | cons e es ih =>
    obtain ⟨n1, n2⟩ := List.nodup_cons.mp hn
    obtain ⟨h1, h2, h3⟩ := he e (by simp)
    have st := ih (write g e.1 (clampEntry range e).2) n2 fun x hx => he x (List.mem_cons_of_mem _ hx)
    have w := hw g (clampEntry range e) h1 h2 h3
    have e1 : (clampEntry range e).1 = e.1 := rfl
    simp only [List.map_cons, List.foldl_cons, e1] at w ⊢
    have c : (clampEntry range e).2 = max (range e.1).1 (min (range e.1).2 e.2) := clamp_eq (hr e.1) e.2
    obtain ⟨sl, sv⟩ := st
    refine ⟨by rw [← List.length_set (as := values g) (i := e.1 - 1) (a := (clampEntry range e).2), ← w]; exact sl,
      fun i => ⟨fun v hv => ?_, fun hv => ?_⟩⟩
    · rcases List.mem_cons.mp hv with rfl | hv
      · have absent : ∀ v', (i + 1, v') ∉ es := fun v' hm => n1 (List.mem_map.mpr ⟨_, hm, rfl⟩)
        rw [(sv i).2 absent, w, ← c]
        have : i < (values g).length := by rw [hl]; omega
        simp [this]
      · exact (sv i).1 v hv
    · have a1 : ∀ v, (i + 1, v) ∉ es := fun v hm => hv v (List.mem_cons_of_mem _ hm)
      have a2 : e.1 ≠ i + 1 := fun q => hv e.2 (by rw [← q]; simp)
      rw [(sv i).2 a1, w, List.getElem?_set_ne (by omega)]

/-! ## Archive -/

theorem setSlot_slot (s : State) {i : Nat} (h : i < s.archive.slots.length) (x : Slot) (j : Nat) :
    (s.setSlot i x).slot j = if j = i then x else s.slot j := by
  unfold State.setSlot State.slot
  simp only [List.getD_eq_getElem?_getD, List.getElem?_set]
  by_cases e : i = j
  · subst e; simp [h]
  · simp [e, Ne.symm e]

@[simp] theorem setEngine_slot (s : State) (e : Engine) (j : Nat) : (s.setEngine e).slot j = s.slot j := rfl

@[simp] theorem setSlot_slots_length (s : State) (i : Nat) (x : Slot) :
    (s.setSlot i x).archive.slots.length = s.archive.slots.length := by
  simp [State.setSlot]

end Sys2Proof.Machine
end

