-- ==== Sys2Proof/Laws/Pages.lean ====
section
/-! SUPPORT. The fields of readouts and archive pages: what the model sends is what the layouts of chapter 12 lay out
one field after another. -/

namespace Sys2Proof.Machine

open Sys2Proof.Safety

/-- The geometry field is laid out as 12.4 lists it. -/
theorem geometryField_eq (g : Geometry) : geometryField g = laid (geometryLayout g) := by
  simp [geometryField, laid, geometryLayout]

/-- Two flags sent as a byte are the weights of their bits. -/
theorem field_bitSet_two (n : Nat) (a b : Bool) : field n (bitSet [a, b]) = field n (weights [a, b]) := by
  cases a <;> cases b <;> rfl

/-- The deviation summary is laid out as 12.4 lists it. -/
theorem summaryField_eq (t : StationTable) : summaryField t = laid (summaryLayout t) := by
  have e : ∀ o, indexField o = field 2 (indexValue o) := fun o => by cases o <;> rfl
  simp [summaryField, laid, summaryLayout, e, field_bitSet_two]

/-- A set of flags is sent as the weights of its bits. -/
theorem bitSet_eq (bs : List Bool) : bitSet bs = weights bs := by
  have g : ∀ n : Nat, (2 : Int) ^ n * bitSet bs = ((bs.zipIdx n).map fun x => if x.1 then (2 : Int) ^ x.2 else 0).sum := by
    induction bs with
    | nil => simp [bitSet]
    | cons b bs ih =>
      intro n
      have := ih (n + 1)
      simp only [List.zipIdx_cons, List.map_cons, List.sum_cons, ← this, bitSet, bit]
      cases b <;> simp <;> ring
  simpa [weights] using g 0

/-- The counters are laid out as 12.4 lists them. -/
theorem counterField_eq (s : State) : s.drives.counterField = laid (countersLayout s) := by
  unfold Drives.counterField countersLayout laid
  simp [bitSet_eq, Drives.counters, List.map_map, Function.comp_def]

theorem laid_append (xs ys : List (Nat × Int)) : laid (xs ++ ys) = laid xs ++ laid ys := by simp [laid]

theorem laid_length (xs : List (Nat × Int)) : (laid xs).length = (xs.map (·.1)).sum := by
  simp [laid, Function.comp_def, List.length_flatten]

/-- A station entry has 24 bytes, present or absent. -/
theorem stationEntry_length (rs : List Station) (k : Nat) : (stationEntry rs k).length = 24 := by
  unfold stationEntry
  split <;> simp

/-- The pages of a panel have the layout of 12.4. -/
theorem panelPages_agree (s : State) : PagesAgree s (panelPages s) := by
  refine ⟨by simp [panelPages, stationPages], ?_, fun h => ?_, fun p hp => ⟨_, ?_, ?_, rfl⟩⟩
  · simp [panelPages, headerPage, headerLayout, geometryField_eq, summaryField_eq, counterField_eq, laid]
  · have g : (laid (geometryLayout s.geometry)).length = 31 := by rw [laid_length]; rfl
    have u : (laid (summaryLayout s.table)).length = 13 := by rw [laid_length]; rfl
    have c : (laid (countersLayout s)).length = 54 := by
      rw [laid_length]
      simp [countersLayout, Function.comp_def, h.1, h.2.1]
    simp only [headerLayout, laid_append, List.length_append, g, u, c]
    simp [laid]
  · simp [panelPages, stationPages, hp, stationPage, stationEntries]
  · simp [List.length_flatten, Function.comp_def, stationEntry_length]

end Sys2Proof.Machine
end

