-- ==== Sys2Proof/Laws/Table.lean ====
section
/-! SUPPORT. The Station Table's operations: looking up and placing records, the offsets they get, the walker's next
index, the held queries and the emptied table, each said once. `Ordered` is the first part of `TableLaw`. -/

namespace Sys2Proof.Machine

open Sys2Proof.Safety

/-- The records are in strictly ascending index order. -/
abbrev Ordered (rs : List Station) : Prop := rs.Pairwise fun r q => r.index < q.index

/-! ## Lookup -/

theorem findStation_mem {rs : List Station} {k : Nat} {r : Station} (h : findStation rs k = some r) :
    r ∈ rs ∧ r.index = k :=
  ⟨List.mem_of_find?_eq_some h, by simpa using List.find?_some h⟩

theorem findStation_none {rs : List Station} {k : Nat} : findStation rs k = none ↔ ∀ r ∈ rs, r.index ≠ k := by
  simp [findStation]

/-- Two records of an ordered table with one index are the same. -/
theorem eq_of_index {rs : List Station} (h : Ordered rs) {r q : Station} (hr : r ∈ rs) (hq : q ∈ rs)
    (e : r.index = q.index) : r = q := by
  induction rs with
  | nil => simp at hr
  | cons x xs ih =>
    have hx := (List.pairwise_cons.mp h).1
    rcases List.mem_cons.mp hr with rfl | mr <;> rcases List.mem_cons.mp hq with rfl | mq
    · rfl
    · exact absurd e (hx q mq).ne
    · exact absurd e (hx r mr).ne'
    · exact ih (List.pairwise_cons.mp h).2 mr mq

theorem findStation_of_mem {rs : List Station} (h : Ordered rs) {r : Station} (hr : r ∈ rs) :
    findStation rs r.index = some r := by
  match e : findStation rs r.index with
  | none => exact absurd rfl (findStation_none.mp e r hr)
  | some q =>
    have g := findStation_mem e
    rw [eq_of_index h g.1 hr g.2]

theorem findStation_iff {rs : List Station} (h : Ordered rs) {k : Nat} {r : Station} :
    findStation rs k = some r ↔ r ∈ rs ∧ r.index = k :=
  ⟨findStation_mem, fun g => g.2 ▸ findStation_of_mem h g.1⟩

/-! ## Placing a record -/

theorem mem_putStation {rs : List Station} (h : Ordered rs) (r q : Station) :
    q ∈ putStation r rs ↔ q = r ∨ (q ∈ rs ∧ q.index ≠ r.index) := by
  induction rs with
  | nil => simp [putStation]
  | cons x xs ih =>
    have hx := (List.pairwise_cons.mp h).1
    have hs := (List.pairwise_cons.mp h).2
    unfold putStation
    split
    · rename_i g
      simp only [List.mem_cons]
      constructor
      · rintro (rfl | rfl | m)
        · exact .inl rfl
        · exact .inr ⟨.inl rfl, by omega⟩
        · exact .inr ⟨.inr m, by have := hx _ m; omega⟩
      · rintro (rfl | ⟨m, -⟩)
        · exact .inl rfl
        · exact .inr m
    · split
      · rename_i g e
        simp only [List.mem_cons]
        constructor
        · rintro (rfl | m)
          · exact .inl rfl
          · exact .inr ⟨.inr m, by have := hx _ m; omega⟩
        · rintro (rfl | ⟨rfl | m, n⟩)
          · exact .inl rfl
          · exact absurd e.symm n
          · exact .inr m
      · rename_i g e
        simp only [List.mem_cons, ih hs]
        constructor
        · rintro (rfl | rfl | ⟨m, n⟩)
          · exact .inr ⟨.inl rfl, fun e' => e e'.symm⟩
          · exact .inl rfl
          · exact .inr ⟨.inr m, n⟩
        · rintro (rfl | ⟨rfl | m, n⟩)
          · exact .inr (.inl rfl)
          · exact .inl rfl
          · exact .inr (.inr ⟨m, n⟩)

theorem ordered_putStation {rs : List Station} (h : Ordered rs) (r : Station) : Ordered (putStation r rs) := by
  induction rs with
  | nil => simp [putStation]
  | cons x xs ih =>
    have hx := (List.pairwise_cons.mp h).1
    have hs := (List.pairwise_cons.mp h).2
    unfold putStation
    split
    · rename_i g
      refine List.pairwise_cons.mpr ⟨fun q hq => ?_, h⟩
      rcases List.mem_cons.mp hq with rfl | m
      · exact g
      · have := hx _ m; omega
    · split
      · rename_i g e
        exact List.pairwise_cons.mpr ⟨fun q m => by have := hx _ m; omega, hs⟩
      · rename_i g e
        refine List.pairwise_cons.mpr ⟨fun q hq => ?_, ih hs⟩
        rcases (mem_putStation hs r q).mp hq with rfl | ⟨m, -⟩
        · omega
        · exact hx _ m

/-- Replacing the record of a present index changes that record and no other. -/
theorem putStation_eq_map {rs : List Station} (h : Ordered rs) {r : Station} (hr : ∃ q ∈ rs, q.index = r.index) :
    putStation r rs = rs.map fun q => if q.index = r.index then r else q := by
  induction rs with
  | nil => simp at hr
  | cons x xs ih =>
    have hx := (List.pairwise_cons.mp h).1
    have hs := (List.pairwise_cons.mp h).2
    obtain ⟨q, hq, e⟩ := hr
    have tail : ∀ y : Nat, y ≤ x.index → xs.map (fun q => if q.index = y then r else q) = xs := fun y hy => by
      conv_rhs => rw [← List.map_id xs]
      refine List.map_congr_left fun z hz => ?_
      have := hx z hz
      have n : z.index ≠ y := by omega
      simp [n]
    unfold putStation
    rcases List.mem_cons.mp hq with rfl | m
    · rw [if_neg (by omega), if_pos e.symm]
      simp [e, tail r.index (by omega)]
    · have := hx q m
      rw [if_neg (by omega), if_neg (by omega), ih hs ⟨q, m, e⟩, List.map_cons]
      have n : x.index ≠ r.index := by omega
      simp [n]

theorem map_keeps_ordered {rs : List Station} (h : Ordered rs) {f : Station → Station}
    (hf : ∀ r, (f r).index = r.index) : Ordered (rs.map f) := by
  rw [Ordered, List.pairwise_map]
  exact h.imp fun g => by simpa only [hf] using g

theorem ordered_staleAbove {rs : List Station} (h : Ordered rs) (k : Nat) : Ordered (staleAbove k rs) :=
  map_keeps_ordered h fun r => by split <;> rfl

theorem mem_staleAbove {rs : List Station} {k : Nat} {q : Station} :
    q ∈ staleAbove k rs ↔ ∃ o ∈ rs, q = if k < o.index then { o with stale := true } else o := by
  simp only [staleAbove, List.mem_map, eq_comm]

/-! ## Neighbours -/

theorem predecessor_spec {rs : List Station} (h : Ordered rs) {k : Nat} {p : Station} :
    predecessor rs k = some p ↔ IsPredecessor rs k p := by
  have hf : Ordered (rs.filter fun r => r.index < k) := h.filter _
  constructor
  · intro e
    have m := List.mem_of_getLast? e
    rw [List.mem_filter] at m
    refine ⟨m.1, by simpa using m.2, fun q hq hk => ?_⟩
    have mq : q ∈ rs.filter fun r => r.index < k := List.mem_filter.mpr ⟨hq, by simpa using hk⟩
    obtain ⟨ys, ey⟩ := List.getLast?_eq_some_iff.mp e
    rw [ey] at mq hf
    rcases List.mem_append.mp mq with g | g
    · exact ((List.pairwise_append.mp hf).2.2 q g p (by simp)).le
    · simp only [List.mem_singleton] at g; rw [g]
  · rintro ⟨hp, hk, hmax⟩
    have mp : p ∈ rs.filter fun r => r.index < k := List.mem_filter.mpr ⟨hp, by simpa using hk⟩
    unfold predecessor
    cases e : (rs.filter fun r => r.index < k).getLast? with
    | none => rw [List.getLast?_eq_none_iff] at e; rw [e] at mp; simp at mp
    | some q =>
      have m := List.mem_of_getLast? e
      rw [List.mem_filter] at m
      have hq : q.index < k := by simpa using m.2
      have l1 := hmax q m.1 hq
      have l2 : p.index ≤ q.index := by
        obtain ⟨ys, ey⟩ := List.getLast?_eq_some_iff.mp e
        rw [ey] at mp hf
        rcases List.mem_append.mp mp with g | g
        · exact ((List.pairwise_append.mp hf).2.2 p g q (by simp)).le
        · simp only [List.mem_singleton] at g; rw [g]
      rw [eq_of_index h m.1 hp (by omega)]

theorem predecessor_none {rs : List Station} (h : Ordered rs) {k : Nat} :
    predecessor rs k = none ↔ ∀ p, ¬IsPredecessor rs k p := by
  constructor
  · intro e p hp
    rw [(predecessor_spec h).mpr hp] at e
    exact absurd e (by simp)
  · intro g
    cases e : predecessor rs k with
    | none => rfl
    | some p => exact absurd ((predecessor_spec h).mp e) (g p)

theorem isPredecessor_unique {rs : List Station} (h : Ordered rs) {k : Nat} {p q : Station}
    (hp : IsPredecessor rs k p) (hq : IsPredecessor rs k q) : p = q :=
  eq_of_index h hp.1 hq.1 (le_antisymm (hq.2.2 p hp.1 hp.2.1) (hp.2.2 q hq.1 hq.2.1))

theorem nextAbove_spec {rs : List Station} (h : Ordered rs) {k c : Nat} :
    nextAbove rs k = some c ↔ IsNextAbove rs k c := by
  simp only [nextAbove, Option.map_eq_some_iff]
  constructor
  · rintro ⟨r, e, rfl⟩
    obtain ⟨hk, as, bs, rfl, ha⟩ := List.find?_eq_some_iff_append.mp e
    refine ⟨⟨r, by simp, rfl⟩, by simpa using hk, fun q hq hkq => ?_⟩
    rcases List.mem_append.mp hq with g | g
    · have := ha q g; simp at this; omega
    · rcases List.mem_cons.mp g with rfl | g
      · exact le_rfl
      · exact ((List.pairwise_cons.mp (List.pairwise_append.mp h).2.1).1 q g).le
  · rintro ⟨⟨r, hr, rfl⟩, hk, hmin⟩
    cases e : rs.find? fun r => k < r.index with
    | none => rw [List.find?_eq_none] at e; exact absurd (by simpa using hk) (e r hr)
    | some q =>
      have mq := List.mem_of_find?_eq_some e
      have hq : k < q.index := by simpa using List.find?_some e
      have l1 := hmin q mq hq
      obtain ⟨-, as, bs, rfl, ha⟩ := List.find?_eq_some_iff_append.mp e
      refine ⟨q, rfl, le_antisymm ?_ l1⟩
      rcases List.mem_append.mp hr with g | g
      · have := ha r g; simp at this; omega
      · rcases List.mem_cons.mp g with rfl | g
        · exact le_rfl
        · exact ((List.pairwise_cons.mp (List.pairwise_append.mp h).2.1).1 r g).le

theorem nextAbove_none {rs : List Station} {k : Nat} : nextAbove rs k = none ↔ ∀ r ∈ rs, r.index ≤ k := by
  simp [nextAbove]

/-- The walker that starts at the next index above, as the machine builds it. -/
theorem isWalkerAbove_map {rs : List Station} (h : Ordered rs) (k now : Nat) :
    IsWalkerAbove rs k now ((nextAbove rs k).map fun c => { cursor := c, due := now + 50 }) := by
  cases e : nextAbove rs k with
  | none => exact nextAbove_none.mp e
  | some c => exact ⟨(nextAbove_spec h).mp e, rfl⟩

/-! ## Offsets -/

theorem withOffset_index (g : Geometry) (rs : List Station) (r : Station) : (withOffset g rs r).index = r.index := rfl

/-- The offsets that a record is given are those of R61. -/
theorem withOffset_agrees {rs : List Station} (h : Ordered rs) (g : Geometry) (r : Station) :
    OffsetsAgree g rs (withOffset g rs r) := by
  refine ⟨fun e => ?_, fun p hp => ?_, fun e n => ?_⟩
  · change r.index = 0 at e
    simp [withOffset, offsetFrom, e]
  · change IsPredecessor rs r.index p at hp
    have e := (predecessor_spec h).mpr hp
    have n : r.index ≠ 0 := fun e0 => by have := hp.2.1; omega
    simp [withOffset, offsetFrom, e, n]
  · change r.index ≠ 0 at e
    have m := (predecessor_none h).mpr n
    change predecessor rs r.index = none at m
    simp [withOffset, offsetFrom, m, e]

/-- The GAP_BRIDGED mark that a record is given is that of R61. -/
theorem withOffset_gap {rs : List Station} (h : Ordered rs) (g : Geometry) (r : Station) :
    GapAgrees rs (withOffset g rs r) := by
  unfold GapAgrees
  change gapOf (predecessor rs r.index) r.index = true ↔
    r.index ≠ 0 ∧ ∀ p, IsPredecessor rs r.index p → r.index ≠ p.index + 1
  cases e : predecessor rs r.index with
  | none =>
    have n := (predecessor_none h).mp e
    simp [gapOf, n]
  | some p =>
    have hp := (predecessor_spec h).mp e
    have hlt := hp.2.1
    simp only [gapOf, Bool.and_eq_true, bne_iff_ne, decide_eq_true_eq]
    constructor
    · rintro ⟨a, b⟩
      exact ⟨a, fun q hq => by rw [isPredecessor_unique h hq hp]; omega⟩
    · rintro ⟨a, b⟩
      exact ⟨a, by have := b p hp; omega⟩

/-! ## Held queries -/

theorem setHold_hold (t : StationTable) (l k : Link) (x : Hold) :
    (t.setHold l x).hold k = if k = l then x else t.hold k := by
  cases l <;> cases k <;> rfl

@[simp] theorem mapHolds_hold (t : StationTable) (f : Hold → Hold) (l : Link) :
    (t.mapHolds f).hold l = f (t.hold l) := by
  cases l <;> rfl

theorem covers_iff (q : Query) (k : Nat) : q.covers k = true ↔ q.first ≤ k ∧ k < q.first + q.range := by
  simp [Query.covers]

theorem qualifies_iff (r : Station) : r.qualifies = true ↔ r.state = .settled ∧ r.stale = false := by
  simp [Station.qualifies]

theorem rangeReady_iff (rs : List Station) (q : Query) : rangeReady rs q = true ↔
    ∀ r ∈ rs, q.first ≤ r.index → r.index < q.first + q.range → r.state = .settled ∧ r.stale = false := by
  simp only [rangeReady, List.all_eq_true, Bool.or_eq_true, Bool.not_eq_true', ← Bool.not_eq_true, covers_iff,
    qualifies_iff]
  exact forall₂_congr fun r _ => ⟨fun g a b => g.resolve_left fun n => n ⟨a, b⟩, fun g =>
    (em _).imp_left (fun n => n) |>.elim (fun c => .inr (g c.1 c.2)) (fun n => .inl n)⟩

/-- The review of a hold is that of R76. -/
theorem review_spec (rs : List Station) (h : Hold) : Reviewed rs h (h.review rs) := by
  refine ⟨?_, fun n => ?_⟩
  · rintro q rfl
    rw [← rangeReady_iff]
    exact ⟨fun g => by simp [Hold.review, g, stationEntries], fun g => by simp [Hold.review, g]⟩
  · cases h <;> first | rfl | exact absurd rfl (n _)

/-- The review of every hold changes the holds only. -/
theorem reviewHolds_spec (s : State) : HoldsReviewed s.table (reviewHolds s).table :=
  ⟨rfl, fun l => by
    have e : (reviewHolds s).table.hold l = (s.table.hold l).review s.table.records := mapHolds_hold _ _ _
    rw [e]; exact review_spec _ _⟩

/-- The table as OPEN PANEL and ABANDON PANEL leave it. -/
theorem emptied_spec (t : StationTable) : TableEmptied t t.emptied := by
  refine ⟨rfl, rfl, rfl, rfl, rfl, rfl, rfl, rfl, fun l => ?_⟩
  cases l <;> simp only [StationTable.emptied, StationTable.hold]
  · cases t.holdCab <;> rfl
  · cases t.holdPlant <;> rfl
  · cases t.holdRecord <;> rfl

/-! ## Placing with the summary -/

/-- Putting records in place makes the summary theirs. -/
theorem setRecords_summary (rs : List Station) (s : State) : SummaryLaw (setRecords rs s) := rfl

@[simp] theorem setRecords_records (rs : List Station) (s : State) : (setRecords rs s).table.records = rs := rfl

/-- The judgement of a record and its settlement are those of R68 and R70. -/
theorem judged_settled (g : Geometry) (r : Station) : judged g { r with state := .settled } = SettledRecord g r := rfl

/-! ## The deviation summary (R71) -/

/-- In an ordered list the worst magnitude is the greatest, at the lowest index that has it. -/
theorem worstOf_agrees (axis : Station → Int) {rs : List Station} (h : Ordered rs) :
    WorstAgrees rs axis (worstOf axis rs).1 (worstOf axis rs).2 := by
  induction rs with
  | nil => exact ⟨fun _ => ⟨rfl, rfl⟩, fun n => absurd rfl n⟩
  | cons r rs ih =>
    obtain ⟨hr, hs⟩ := List.pairwise_cons.mp h
    refine ⟨fun n => absurd n (by simp), fun _ => ?_⟩
    obtain ⟨i0, i1⟩ := ih hs
    rcases eq_or_ne rs [] with rfl | n
    · exact ⟨r, by simp, rfl, rfl, by simp [worstOf]⟩
    · obtain ⟨m, hm, e1, e2, all⟩ := i1 n
      have e : worstOf axis rs = (|axis m|, some m.index) := Prod.ext e1 e2
      rw [e1] at all
      simp only [worstOf, e]
      split
      · rename_i g
        refine ⟨r, by simp, rfl, rfl, fun q hq => ?_⟩
        rcases List.mem_cons.mp hq with rfl | hq
        · exact ⟨le_rfl, fun _ => le_rfl⟩
        · exact ⟨(all q hq).1.trans g, fun _ => (hr q hq).le⟩
      · rename_i g
        refine ⟨m, by simp [hm], rfl, rfl, fun q hq => ?_⟩
        rcases List.mem_cons.mp hq with rfl | hq
        · exact ⟨(not_le.mp g).le, fun c => absurd c (not_le.mp g).ne⟩
        · exact all q hq

/-- The summary of an ordered table is that of R71. -/
theorem summary_agrees {s : State} (h : Ordered s.table.records) (e : SummaryLaw s) : SummaryAgrees s.table := by
  have f : (fun r : Station => decide (r.state = .settled) && !r.stale) = Station.qualifies := rfl
  unfold SummaryAgrees
  rw [show s.table.summary = _ from e, f]
  exact ⟨worstOf_agrees _ (h.filter _), worstOf_agrees _ (h.filter _), rfl, rfl⟩

/-! ## Invalidation, tolerance and settlement (R76, R70, R68) -/

/-- Invalidation: a prepared hold whose range holds a changed index waits again. -/
theorem invalidate_spec (changed : List Nat) (h : Hold) :
    Invalidated (fun q => ∃ k ∈ changed, InRange q k) h (h.invalidate changed) := by
  refine ⟨?_, fun n => ?_⟩
  · rintro q b rfl
    have e : changed.any q.covers = true ↔ ∃ k ∈ changed, InRange q k := by simp [InRange, covers_iff]
    exact ⟨fun g => by simp [Hold.invalidate, e.mpr g], fun g => by simp [Hold.invalidate, mt e.mp g]⟩
  · cases h <;> first | rfl | exact absurd rfl (n _ _)

@[simp] theorem reviewHolds_firstX (s : State) : (reviewHolds s).table.firstX = s.table.firstX := rfl

@[simp] theorem reviewHolds_firstY (s : State) : (reviewHolds s).table.firstY = s.table.firstY := rfl

@[simp] theorem setRecords_firstX (rs : List Station) (s : State) : (setRecords rs s).table.firstX = s.table.firstX :=
  rfl

@[simp] theorem setRecords_firstY (rs : List Station) (s : State) : (setRecords rs s).table.firstY = s.table.firstY :=
  rfl

@[simp] theorem applyTolerance_links (r : Station) (s : State) : (applyTolerance r s).links = raisedLinks
    (if (r.marks.exceedsX && !s.table.firstX) || (r.marks.exceedsY && !s.table.firstY) then Flag.tolerance.only else 0)
    s.links := by
  simp only [applyTolerance, raiseIf_links]

@[simp] theorem applyTolerance_firstX (r : Station) (s : State) :
    (applyTolerance r s).table.firstX = (s.table.firstX || (r.marks.exceedsX && !s.table.firstX)) := by
  simp only [applyTolerance, raiseIf]; split <;> rfl

@[simp] theorem applyTolerance_firstY (r : Station) (s : State) :
    (applyTolerance r s).table.firstY = (s.table.firstY || (r.marks.exceedsY && !s.table.firstY)) := by
  simp only [applyTolerance, raiseIf]; split <;> rfl

@[simp] theorem applyTolerance_hold (r : Station) (s : State) (l : Link) :
    (applyTolerance r s).table.hold l = s.table.hold l := by
  cases l <;> (simp only [applyTolerance, raiseIf]; split <;> rfl)

/-- What settling a station does. -/
theorem settle_spec {u : State} (h : Ordered u.table.records) (k : Nat) : SettlesAt k u (settle k u) := by
  unfold SettlesAt settle
  cases e : findStation u.table.records k with
  | none =>
    refine ⟨fun _ => rfl, fun r hr hk _ => ?_⟩
    exact absurd hk (findStation_none.mp e r hr)
  | some r =>
    obtain ⟨hr, rfl⟩ := findStation_mem e
    have uniq : ∀ q ∈ u.table.records, q.index = r.index → q = r := fun q hq g => eq_of_index h hq hr g
    simp only
    split
    · rename_i ho
      refine ⟨fun a => absurd (a r hr rfl) (by simp [ho]), fun q hq hk _ => ?_⟩
      obtain rfl := uniq q hq hk
      have put : ∀ r' : Station, r'.index = q.index →
          putStation r' u.table.records = u.table.records.map fun x => if x.index = q.index then r' else x :=
        fun r' e => e ▸ putStation_eq_map h ⟨q, hq, e.symm⟩
      by_cases hs : q.stale = true
      · have e1 : (if q.stale = true then ({ q with state := .settled } : Station) else SettledRecord u.geometry q)
            = { q with state := .settled } := if_pos hs
        rw [if_pos hs, e1, ← put { q with state := .settled } rfl]
        refine ⟨?_, (linksKept_iff _ _ _).mpr ?_, rfl, fun l => ?_⟩
        · simp [reviewHolds, setRecords, StationTable.mapHolds, hs]
        · simp [reviewHolds, setRecords, StationTable.mapHolds]
        · exact (reviewHolds_spec (setRecords _ u)).2 l
      · have e1 : (if q.stale = true then ({ q with state := .settled } : Station) else SettledRecord u.geometry q)
            = SettledRecord u.geometry q := if_neg hs
        rw [if_neg hs, e1, judged_settled, ← put (SettledRecord u.geometry q) rfl]
        refine ⟨?_, (linksKept_iff _ _ _).mpr ?_, rfl, fun l => ?_⟩
        · simp [reviewHolds, setRecords, StationTable.mapHolds, applyTolerance, raiseIf, raise, hs]
          split <;> simp only [true_and, and_true] <;> constructor <;> first | rfl | (cases u.table.firstX <;> simp) | (cases u.table.firstY <;> simp)
        · simp only [reviewHolds_links, setRecords_links, applyTolerance_links, flagsOfList_toleranceChange,
            reviewHolds_firstX, reviewHolds_firstY, setRecords_firstX, setRecords_firstY, applyTolerance_firstX,
            applyTolerance_firstY]
          generalize (SettledRecord u.geometry q).marks.exceedsX = a, (SettledRecord u.geometry q).marks.exceedsY = b,
            u.table.firstX = c, u.table.firstY = d
          cases a <;> cases b <;> cases c <;> cases d <;> rfl
        · rw [← applyTolerance_hold (SettledRecord u.geometry q) u]
          exact (reviewHolds_spec (setRecords _ (applyTolerance _ u))).2 l
    · rename_i ho
      refine ⟨fun _ => rfl, fun q hq hk hq' => ?_⟩
      exact absurd (uniq q hq hk ▸ hq') ho

/-! ## The bound of means and offsets (R55, R62) -/

/-- A mean of values of a range lies in the range. -/
theorem roundAway_mem {x lo hi : Int} {n : Int} (hn : 0 < n) (h1 : lo * n ≤ x) (h2 : x ≤ hi * n) (hl : lo ≤ 0)
    (hh : 0 ≤ hi) : lo ≤ roundAway x n ∧ roundAway x n ≤ hi := by
  unfold roundAway
  split
  · have a : 0 ≤ (2 * x + n) / (2 * n) := Int.ediv_nonneg (by omega) (by omega)
    have b : (2 * x + n) / (2 * n) < hi + 1 := Int.ediv_lt_of_lt_mul (by omega) (by nlinarith)
    omega
  · have a : 0 ≤ (2 * -x + n) / (2 * n) := Int.ediv_nonneg (by omega) (by omega)
    have b : (2 * -x + n) / (2 * n) < -lo + 1 := Int.ediv_lt_of_lt_mul (by omega) (by nlinarith)
    omega

/-- The sample accumulator keeps its sums within the bounds of its count, and its count within 4,095. -/
theorem add_inSum {n : Nat} {x v : Int} (h : InSum n x) (g : InIncl v) :
    InSum (n + 1) (x + v) ∧ (n + 1 = 4096 → InSum 2048 ((x + v).tdiv 2)) := by
  obtain ⟨h1, h2⟩ := h
  obtain ⟨g1, g2⟩ := g
  refine ⟨⟨by push_cast; omega, by push_cast; omega⟩, fun e => ?_⟩
  unfold InSum
  rcases le_or_gt 0 (x + v) with p | p
  · rw [Int.tdiv_eq_ediv_of_nonneg p]; push_cast; omega
  · rw [show x + v = -(-(x + v)) by ring, Int.neg_tdiv, Int.tdiv_eq_ediv_of_nonneg (by omega)]; push_cast; omega

/-- The offset that R61 gives station k keeps the bound, from a predecessor that keeps it. -/
theorem offsetFrom_bound {g : Geometry} {pred : Option Station} {axis : Station → Int} {k : Nat} {mean : Int}
    (hg : 0 ≤ g.spacing) (hs : g.spacing * k ≤ 200000) (hm : InIncl mean)
    (hp : ∀ p, pred = some p → p.index < k ∧ OffsetBound g p.index (axis p)) :
    OffsetBound g k (offsetFrom g pred axis k mean) := by
  have hk : (0 : Int) ≤ k := Int.natCast_nonneg k
  have hm' : |mean| ≤ 2048 := abs_le.mpr ⟨hm.1, by have := hm.2; omega⟩
  have key : |offsetFrom g pred axis k mean| ≤ 2048 * 25 * g.spacing * k := by
    unfold offsetFrom
    split
    · simp; positivity
    · cases e : pred with
      | none =>
        simp only
        rw [abs_mul, abs_mul, abs_mul, abs_of_nonneg hg, abs_of_nonneg hk]
        have := mul_nonneg hg hk
        simp only [Nat.abs_ofNat]
        nlinarith
      | some p =>
        obtain ⟨hi, hb, -⟩ := hp p e
        have d : (0 : Int) ≤ k - p.index := by omega
        simp only
        refine (abs_add_le _ _).trans ?_
        rw [abs_mul, abs_mul, abs_mul, abs_of_nonneg hg, abs_of_nonneg d]
        have := mul_nonneg hg d
        simp only [Nat.abs_ofNat]
        nlinarith
  exact ⟨key, key.trans (by nlinarith)⟩

end Sys2Proof.Machine
end

