-- ==== Sys2Proof/WellFormed.lean ====
section
/-! DEFINITION. What a command's operands must satisfy to be a single event of the kind the table lists.

`exec` gives every command a meaning, well-formed or not; these checks say which operands stand for one event on the
real lines. -/

namespace Sys2Proof

/-- The longest frame a master sends: marker, sequence, kind, length, 240 payload bytes and two check bytes (R163). -/
def maxFrameBytes : Nat := 246

/-- The bytes of one FRAME_RECEIVED are at least one and at most one longest frame. -/
def frameBytesOk (bytes : List Byte) : Bool := 1 ≤ bytes.length && bytes.length ≤ maxFrameBytes

/-- A converter reading before its clamp, in a signed 16-bit carrier around the 12-bit result (R17: an input beyond
the converter's span reads as the limit). -/
def rawReadingOk (raw : Int) : Bool := -32768 ≤ raw && raw ≤ 32767

/-- A command is well formed when its operands stand for one event. -/
def Instr.wellFormed : Instr → Bool
  | .frameReceived _ bytes => frameBytesOk bytes
  | .conversionCompletion raw => rawReadingOk raw
  | .resetLineAssert | .cold | .warm | .bytePauseTimeout _ | .replySent _ | .silenceExpiry _ | .unknownRequest
  | .openPanel | .closePanel | .abandonPanel | .extendDepth | .setDepth | .setWheel | .keepWheel | .setFeed
  | .setTuning | .setAcquisition | .restartDrive | .clearPlateFault | .takePump | .reclaimPump | .restart | .setPump
  | .reportReturn | .releasePump | .readStatus | .readSnapshot | .readStations | .cancelHold | .readDemands
  | .readTallies | .readFlags | .clearFlags | .setMask | .readArchive | .archiveStatus | .eraseSlot | .wipeArchive
  | .clearTallies | .pageProgramCompletion _ | .eraseCompletion _ | .scanTimerExpiry | .encoderTransition _ _
  | .restitchStepCompletion | .feedWindowExpiry | .pickupEdge _ _ | .pickupTimeout _ | .loopTimerExpiry _
  | .pwmPeriodStart | .stallConfirmExpiry _ | .reverseTimerExpiry _ | .loadedTimeExpiry | .travelTimerExpiry _
  | .reportStaleExpiry | .blockageConfirmExpiry | .recoveryTimerExpiry | .wheelDemandExpiry => true

end Sys2Proof
end

