-- ==== Sys2Proof/Tests/Slice0.lean ====
section
/-! SUPPORT. Tests of the commands against values of the spec's worked cases and rules, the refusals of the
well-formedness checks, and a witness for the hypotheses of every statement that has some. -/

namespace Sys2Proof.Tests

open Sys2Proof Sys2Proof.Machine Sys2Proof.Safety

/-! ## Helpers -/

/-- The request frame of these tests: sequence 7. -/
def frame (kind : Byte) (payload : List Byte) : Frame := { seq := 7, kind := kind, payload := payload }

/-- A state in which this request is the only one waiting on its link. -/
def asks (l : Link) (kind : Byte) (payload : List Byte) (s : State) : State :=
  s.setLink l { s.link l with rx := [frame kind payload] }

/-- The next state of a command; every command has one. -/
def run (c : Instr) (s : State) : State :=
  match exec c s with
  | .next t => t
  | .fault _ => s
  | .refused _ => s

/-- The last reply built on a link: outcome, reason and payload. -/
def replied (l : Link) (s : State) : Option (ReplyOutcome × Reason × List Byte) :=
  (s.link l).replies.getLast?.map fun r => (r.outcome, r.reason, r.payload)

/-- The geometry of the worked cases: spacing 200 mm, start 12,000 mm, design 60,000 mm (1.7). -/
def geo : Geometry := { start := 12000, design := 60000 }

/-- An ACTIVE panel of that geometry, its depth REFERENCED at a count. -/
def atCount (count : Int) (floor : Nat) : State :=
  { State.reset with
    panel := .active
    geometry := geo
    depth := { State.reset.depth with count := count, ref := .referenced, floor := floor } }

/-- A station record. -/
def rec (k : Nat) (state : RecordState) (x : Int) : Station :=
  { index := k, state := state, stale := false, meanX := 0, meanY := 0, meanT := 0, samples := 0, offsetX := x
    offsetY := 0, passCount := 1, speedA := 0, speedB := 0, differential := 0, density := none, marks := {} }

/-- A state with these records, their summary in step. -/
def withRecords (rs : List Station) (s : State) : State :=
  { s with table := { s.table with records := rs, summary := summaryOf rs } }

/-! ## Well-formedness -/

theorem test_wellFormed_refuses_empty_frame : (Instr.frameReceived .cab []).wellFormed = false := by decide

theorem test_wellFormed_refuses_long_frame :
    (Instr.frameReceived .cab (List.replicate 247 0)).wellFormed = false := by decide +kernel

theorem test_wellFormed_takes_longest_frame :
    (Instr.frameReceived .cab (List.replicate 246 0)).wellFormed = true := by decide +kernel

theorem test_wellFormed_refuses_reading_below : (Instr.conversionCompletion (-32769)).wellFormed = false := by decide

theorem test_wellFormed_refuses_reading_above : (Instr.conversionCompletion 32768).wellFormed = false := by decide

/-! ## Decode: no row has bits -/

theorem test_no_word_spells_a_command : decodeTableWord 16 0x1234 = none := by decide

theorem test_withFetchWord_keeps : State.reset.withFetchWord 16 0x1234 = State.reset := by decide

/-! ## Resets (R14, R15, R182) -/

/-- R182: a slot found WRITING at COLD becomes FAULTY, and keeps the panel identifier of its entry. -/
theorem test_cold_makes_writing_faulty :
    (run .cold (State.reset.setSlot 2 { state := .writing, panelId := some 9, pageCount := some 17 })).slot 2
      = { state := .faulty, panelId := some 9, pageCount := some 17 } := by decide

/-- R14: while the line is asserted the part takes no frame. -/
theorem test_resetLine_takes_no_frame :
    run (.frameReceived .cab [marker]) (run .resetLineAssert State.reset) = run .resetLineAssert State.reset := by
  decide

/-- A state in which an accepted RESTART awaits its WARM. -/
def restarted (s : State) : State := { s with links := { s.links with restarting := true } }

/-- R15, R49: WARM keeps an ACTIVE panel, and the feed is held afterwards. -/
theorem test_warm_keeps_panel :
    let t := run .warm (restarted (atCount 20000 40))
    t.panel = .active ∧ t.depth.feedHold = true ∧ t.links.restarting = false ∧ t.demand.expired = true := by decide

/-- R15: the WARM takes effect only when the reply to an accepted RESTART has left: not with it unsent, not without one. -/
theorem test_warm_waits_for_the_reply :
    let s := run .restart (asks .cab 0x2F [] State.reset)
    run .warm s = s ∧ (run .warm (run (.replySent .cab) s)).links.restarting = false
      ∧ run .warm (atCount 20000 40) = atCount 20000 40 := by decide +kernel

/-! ## Links (R163 to R172) -/

/-- R164: the check of 0x01 0x40 0x00 is 0xF660. -/
theorem test_check : checkBytes [0x01, 0x40, 0x00] = [0xF6, 0x60] := by decide +kernel

/-- R164: the frame A5 01 40 00 F6 60 is a READ STATUS with sequence 1. -/
theorem test_frame_joins_queue :
    ((run (.frameReceived .plant [0xA5, 0x01, 0x40, 0x00, 0xF6, 0x60]) State.reset).link .plant).rx
      = [{ seq := 1, kind := 0x40, payload := [] }] := by decide +kernel

/-- R164, R170: with a check byte wrong the frame is discarded and LINK_ERROR set in that link's set. -/
theorem test_bad_check_sets_link_error :
    ((run (.frameReceived .plant [0xA5, 0x01, 0x40, 0x00, 0xF6, 0x61]) State.reset).link .plant).flags = 0x10000#17
      ∧ ((run (.frameReceived .plant [0xA5, 0x01, 0x40, 0x00, 0xF6, 0x61]) State.reset).link .cab).flags = 0#17 := by
  decide +kernel

/-- R163: a pause of more than 10 ms ends the frame in progress. -/
theorem test_pause_ends_frame :
    ((run (.bytePauseTimeout .cab) (run (.frameReceived .cab [0xA5, 0x01]) State.reset)).link .cab).receiver = none := by
  decide +kernel

/-- R166: a reply that has left frees its place. -/
theorem test_reply_leaves :
    ((run (.replySent .cab) (run .readFlags (asks .cab 0x46 [] State.reset))).link .cab).replies = [] := by
  decide +kernel

/-- R169: 3,000 ms after COLD a master that never spoke is SILENT, and LINK_SILENT is raised. -/
theorem test_silence :
    ((run (.silenceExpiry .record) State.reset).link .record).silent = true
      ∧ FlagSet.has ((run (.silenceExpiry .record) State.reset).link .cab).flags .linkSilent = true := by decide

/-- R167: a kind that names no request is refused UNKNOWN. -/
theorem test_unknown : replied .cab (run .unknownRequest (asks .cab 0x15 [] State.reset))
    = some (.refused, .unknown, []) := by decide

/-- R172: CLEAR FLAGS clears the named flags in the sender's set only. -/
theorem test_clearFlags :
    let s := run .clearFlags (asks .cab 0x47 [0, 0x08, 0] (run (.silenceExpiry .record) State.reset))
    (s.link .cab).flags = 0#17 ∧ FlagSet.has (s.link .plant).flags .linkSilent = true := by decide

/-- R183: mask bits 17 to 23 mask nothing. -/
theorem test_setMask : ((run .setMask (asks .plant 0x48 [0xFF, 0, 0] State.reset)).link .plant).mask = 0x10000#17 := by
  decide

/-- R172: READ FLAGS answers with the flag set and the mask. -/
theorem test_readFlags : replied .cab (run .readFlags (asks .cab 0x46 [] (run (.silenceExpiry .record) State.reset)))
    = some (.done, .none, [0, 0x08, 0, 0, 0, 0]) := by decide

/-- R15: RESTART answers DONE, and the engine takes no further request. -/
theorem test_restart :
    replied .cab (run .restart (asks .cab 0x2F [] State.reset)) = some (.done, .none, [])
      ∧ grant (asks .plant 0x40 [] (run .restart (asks .cab 0x2F [] State.reset))) = none := by decide

/-! ## Panels (R3 to R13) -/

/-- R6, R7: a record in range makes the panel ACTIVE. -/
theorem test_openPanel :
    (run .openPanel (asks .cab 0x10 (geometryField geo) State.reset)).panel = .active
      ∧ (run .openPanel (asks .cab 0x10 (geometryField geo) State.reset)).geometry = geo := by decide

/-- R3: a spacing of 99 is refused BAD_VALUE with field number 2. -/
theorem test_openPanel_bad_field :
    replied .cab (run .openPanel (asks .cab 0x10 (geometryField { geo with spacing := 99 }) State.reset))
      = some (.refused, .badValue, [2]) := by decide

/-- R9: with slots 0 and 1 in use, slot 2 is the lowest EMPTY slot; N = 241 gives 17 pages (11's worked sequence). -/
theorem test_closePanel :
    let s := (atCount 20000 40).setSlot 0 { state := .released } |>.setSlot 1 { state := .held }
    ((run .closePanel (asks .cab 0x11 [] s)).slot 2).state = .writing
      ∧ ((run .closePanel (asks .cab 0x11 [] s)).slot 2).pageCount = some 17 := by decide +kernel

/-- R12: ABANDON PANEL removes every record, and the panel is IDLE. -/
theorem test_abandonPanel :
    let s := run .abandonPanel (asks .cab 0x12 [] (withRecords [rec 0 .settled 0] (atCount 20000 40)))
    s.panel = .idle ∧ s.table.records = [] := by decide

/-- 1.7's worked value: at 60,004 mm an extension to 60,500 mm gives N = 243 and clears the final-depth condition. -/
theorem test_extendDepth :
    let s := atCount 60004 241
    let t := run .extendDepth (asks .cab 0x13 (field 4 60500) { s with depth := { s.depth with final := true } })
    t.geometry.stations = 243 ∧ t.depth.final = false ∧ t.depth.floor = 241 := by decide

/-! ## Depth (R35 to R46) -/

/-- R38, R39: with a step of 1,000 µm a depth of 20,000 mm is count 20,000, and the floor is station 41. -/
theorem test_setDepth :
    let t := run .setDepth (asks .cab 0x14 (field 4 20000) (atCount 0 0))
    t.depth.count = 20000 ∧ t.depth.floor = 41 ∧ replied .cab t = some (.done, .none, [0, 0, 0x4E, 0x20]) := by decide +kernel

/-- R61's worked values: station 40 is crossed with mean IX 12 over station 39's offset 1,250,000: 1,310,000 nm. -/
theorem test_crossing :
    let s := withRecords [rec 39 .settled 1250000] (atCount 19999 40)
    let t := run (.encoderTransition true false) { s with table := { s.table with acc := { sumX := 24, count := 2 } } }
    t.depth.floor = 41 ∧ (findStation t.table.records 40).map (·.offsetX) = some 1310000 := by decide +kernel

/-- R36: both lines at once are an illegal transition: the count stands and REFERENCED becomes SUSPECT. -/
theorem test_illegal_transition :
    let t := run (.encoderTransition true true) (atCount 20000 41)
    t.depth.count = 20000 ∧ t.depth.ref = .suspect ∧ FlagSet.has (t.link .cab).flags .depthFault = true := by decide

/-- 8's worked case: a window of 2,000 ms with Δ 2,000 µm is a feed of 60, and the backlog goes from 50,000 to
43,509 mL. -/
theorem test_feedWindow :
    let s := atCount 20002 41
    let t := run .feedWindowExpiry { s with
      depth := { s.depth with windowStart := 20000 }
      ret := { s.ret with
        state := .normal, backlog := 50000, fresh := true
        report := some { flow := 7200, returnDensity := 1120, supplyDensity := 1060 } } }
    t.depth.lastFeed = 60 ∧ t.ret.backlog = 43509 ∧ t.ret.limit = 298 := by decide

/-! ## Station Table (R66, R72 to R78) -/

/-- R185's values: 152,500 nm is sent as 2, −85,000 as −1, 150,000 as 2, −150,000 as −2. -/
theorem test_reportedOffset : [152500, -85000, 150000, -150000].map reportedOffset = [2, -1, 2, -2] := by decide

/-- R66: a restitch step recomputes the stale record, clears its mark and leaves the walker IDLE after the last. -/
theorem test_restitch :
    let s := withRecords [rec 0 .settled 0, { rec 1 .settled 5 with stale := true, meanX := 10 }] (atCount 20000 41)
    let t := run .restitchStepCompletion { s with table := { s.table with walker := some { cursor := 1, due := 50 } } }
    (findStation t.table.records 1).map (fun r => (r.offsetX, r.stale)) = some (50000, false)
      ∧ t.table.walker = none := by decide

/-- R72 check 3: a count of 17 is refused BAD_VALUE. -/
theorem test_readStations_count :
    replied .plant (run .readStations (asks .plant 0x42 [0, 0, 17] (atCount 20000 41)))
      = some (.refused, .badValue, []) := by decide

/-- R73, R74: from index 10 a count of 10 ends at index 15; with an OPEN record there the reply is PENDING. -/
theorem test_readStations_pending :
    replied .plant (run .readStations (asks .plant 0x42 [0, 10, 10] (withRecords [rec 12 .opened 0] (atCount 20000 41))))
      = some (.pending, .none, [0, 10, 6]) := by decide

/-- R78: CANCEL HOLD on a FREE hold is NO_DATA. -/
theorem test_cancelHold_free :
    replied .record (run .cancelHold (asks .record 0x43 [] State.reset)) = some (.noData, .none, []) := by decide

/-! ## Demand Table and return (R137 to R162) -/

/-- 8's worked case: Q 7,200, return density 1,120, supply density 1,060: C is 1,255 and the limit 298. -/
theorem test_reportReturn :
    let s := atCount 20000 41
    let t := run .reportReturn (asks .plant 0x32 (field 2 7200 ++ field 2 1120 ++ field 2 1060)
      { s with ret := { s.ret with state := .normal, backlog := 50000 } })
    t.ret.capacity = 1255 ∧ t.ret.allowance = 298
      ∧ replied .plant t = some (.done, .none, [2, 0x01, 0x2A]) := by decide

/-- 8's congestion episode: a return density of 1,262 above 1,250 enters CONGESTED with the limit 0. -/
theorem test_reportReturn_congests :
    let s := atCount 20000 41
    let t := run .reportReturn (asks .plant 0x32 (field 2 7200 ++ field 2 1262 ++ field 2 1060)
      { s with ret := { s.ret with state := .normal, backlog := 176169 } })
    t.ret.state = .congested ∧ t.ret.limit = 0 := by decide

/-- R145: at the report stale expiry NORMAL becomes BLIND, with the lesser of 30 and 300 as the limit. -/
theorem test_reportStale :
    let s := State.reset
    let t := run .reportStaleExpiry
      { s with ret := { s.ret with state := .normal, fresh := true, staleTimer := some 5000000 } }
    t.ret.state = .blind ∧ t.ret.limit = 30 ∧ t.ret.fresh = false := by decide

/-- R147: the blockage confirm expiry enters BLOCKED. -/
theorem test_blockageConfirm :
    let s := State.reset
    (run .blockageConfirmExpiry { s with ret := { s.ret with state := .normal, confirm := some 10 } }).ret.state
      = .blocked := by decide

/-- R148: the recovery timer expiry enters PRIMING. -/
theorem test_recovery :
    let s := State.reset
    (run .recoveryTimerExpiry { s with ret := { s.ret with state := .blocked, recovery := some 10 } }).ret.state
      = .priming := by decide

/-- R154: a base speed of 401 is stored as 400, with the CLAMPED mark. -/
theorem test_setWheel_clamps :
    let t := run .setWheel (asks .cab 0x20 (groupPayload [(1, 401)]) State.reset)
    t.demand.wheel.baseSpeed = 400 ∧ (t.link .cab).replies.map (·.marks.clamped) = [true]
      ∧ t.demand.expired = false := by decide

/-- R154: a direction that is neither 0 nor 1 is refused BAD_VALUE. -/
theorem test_setWheel_direction :
    replied .cab (run .setWheel (asks .cab 0x20 (groupPayload [(2, 2)]) State.reset)) = some (.refused, .badValue, [])
    := by decide

/-- R157: KEEP WHEEL renews the wheel demand for 2,000 ms. -/
theorem test_keepWheel : (run .keepWheel (asks .cab 0x21 [] State.reset)).demand.life = some 2000000 := by decide

/-- R157: at the expiry WHEEL_EXPIRED is raised and the wheel demand is expired. -/
theorem test_wheelExpiry :
    let t := run .wheelDemandExpiry (run .keepWheel (asks .cab 0x21 [] State.reset))
    t.demand.expired = true ∧ FlagSet.has (t.link .record).flags .wheelExpired = true := by decide

/-- R153: a feed window of 499 ms is stored as 500. -/
theorem test_setFeed : (run .setFeed (asks .cab 0x22 (groupPayload [(4, 499)]) State.reset)).demand.feed.window = 500 := by
  decide

/-- 5's worked sequence, event 2: a Dmax of 18 clamps the differential from −20 to −18 at once. -/
theorem test_setTuning :
    let s := State.reset
    (run .setTuning (asks .cab 0x23 (groupPayload [(5, 18)]) { s with align := { s.align with diff := -20 } })).align.diff
      = -18 := by decide

/-- R154: SET PUMP from the link that does not own the group is refused NOT_OWNER. -/
theorem test_setPump_owner :
    replied .cab (run .setPump (asks .cab 0x31 (groupPayload [(1, 7200)]) State.reset)) = some (.refused, .notOwner, [])
    := by decide

/-- R153: the pump flow demand is stored. -/
theorem test_setPump :
    (run .setPump (asks .plant 0x31 (groupPayload [(1, 7200)]) State.reset)).demand.pump.flow = 7200 := by decide

/-- R160: TAKE PUMP without a release is refused NOT_RELEASED. -/
theorem test_takePump_refused :
    replied .cab (run .takePump (asks .cab 0x27 [] State.reset)) = some (.refused, .notReleased, []) := by decide

/-- R159, R160: after RELEASE PUMP from Plant, TAKE PUMP transfers the group. -/
theorem test_release_then_take :
    (run .takePump (asks .cab 0x27 [] (run .releasePump (asks .plant 0x33 [] State.reset)))).demand.owner = .cab := by
  decide

/-- R160: RECLAIM PUMP from a SILENT Cab link's owner transfers the group back. -/
theorem test_reclaim :
    let s := run (.silenceExpiry .cab) State.reset
    (run .reclaimPump (asks .plant 0x30 [] { s with demand := { s.demand with owner := .cab } })).demand.owner = .plant
    := by decide

/-! ## Acquisition (R16 to R34) -/

/-- R22 check 2: a payload whose length is not 5 + k is refused BAD_LENGTH. -/
theorem test_setAcquisition_length :
    replied .cab (run .setAcquisition (asks .cab 0x24 [1, 0, 0, 50, 0] State.reset)) = some (.refused, .badLength, [])
    := by decide

/-- R24: with restart choice 1 the new period is in force at once and the timer reloaded with it. -/
theorem test_setAcquisition_restart :
    let t := run .setAcquisition (asks .cab 0x24 [1, 0, 0, 100, 0, 1] State.reset)
    t.acq.period = 100 ∧ t.acq.scanTimer = some 100000 ∧ t.acq.pendingList = [.rf] := by decide

/-- R25: a scan timer expiry while a settling scan is in flight raises SCAN_OVERRUN. -/
theorem test_scanTimer_overrun :
    FlagSet.has ((run .scanTimerExpiry State.reset).link .cab).flags .scanOverrun = true := by decide

/-- R21: a raw IX of −2048 with z = −10 becomes −2038 and is still marked. -/
theorem test_zero_correction : convert (-10) .ix (-2048) = { value := -2038, saturated := true } := by decide

/-- R17, R18: the settling scan's first conversion gives the clamped reading, and the next ends 2 ms on. -/
theorem test_conversion :
    let t := run (.conversionCompletion 5000) State.reset
    t.acq.results = [{ channel := .rf, result := { value := 4095, saturated := true } }]
      ∧ t.acq.conversion = some 22000 := by decide

/-- R32: before the first published scan READ SNAPSHOT is NO_DATA. -/
theorem test_snapshot_noData :
    (replied .record (run .readSnapshot (asks .record 0x41 [] State.reset))).map (·.1) = some .noData := by decide

/-! ## Alignment and plates (the worked cases of 5 and 7) -/

/-- The state of 5's worked cases: station 40 current, depth 20,050 mm, TUNING as given, differential −10. -/
def worked : State :=
  let s := withRecords [{ rec 40 .settled 1310000 with offsetY := -200000 }] (atCount 20050 41)
  { s with
    table := { s.table with reference := some 40 }
    align := { s.align with diff := -10 }
    demand := { s.demand with
      wheel := { s.demand.wheel with baseSpeed := 250, targetY := -1 }
      tuning := { s.demand.tuning with dbX := 500, gX := 20, dMax := 60, rStep := 5, lookAhead := 1000 } } }

/-- A scan with these channels in it and no others. -/
def scan (xs : List (Channel × Int)) : ScanRecord :=
  { seq := 1, valid := true
    entries := defaultScanList.map fun c => (xs.find? fun x => x.1 = c).map fun x => { value := x.2, saturated := false } }

/-- 5's worked case, X axis: prediction 1,677,500, error 1,678, demand −23, differential −15. -/
theorem test_alignment_x :
    let u := evaluateAlign (scan [(.ix, 14), (.iy, 30), (.tw, -35)]) worked
    u.diff = -15 ∧ (u.stage.map fun g => (g.delta, g.px, g.ex, g.raw)) = some (50, 1677500, 1678, -23) := by decide

/-- 5's worked case, Y axis, twist and plates: AF 17, BF 27, AR 3, BR 0. -/
theorem test_alignment_y :
    (evaluateAlign (scan [(.ix, 14), (.iy, 30), (.tw, -35)]) worked).demands = { af := 17, ar := 3, bf := 27, br := 0 } := by
  decide

/-- 7's worked sequence at 0 ms: AF reads 410 counts (10 %) against 17 and starts extending. -/
theorem test_plate_extends :
    let s := { worked with align := { worked.align with demands := { af := 17, ar := 3, bf := 27, br := 0 } } }
    let t := plateScan (scan [(.saf, 410), (.sar, 123), (.sbf, 1105), (.sbr, 15)]) s
    (t.plates.af.state, t.plates.ar.state, t.plates.bf.state, t.plates.br.state)
        = (.extending, .hold, .hold, .hold)
      ∧ t.plates.af.lastStroke = some 10 ∧ t.plates.bf.lastStroke = some 27 := by decide

/-- 7's worked sequence at 10,000 ms: the travel timer expiry puts BF into FAULT with its outputs off. -/
theorem test_travel_expiry :
    let s := State.reset.setPlate .bf { state := .retracting, retract := true, travel := some 10000000 }
    ((run (.travelTimerExpiry .bf) s).plate .bf).state = .fault
      ∧ ((run (.travelTimerExpiry .bf) s).plate .bf).retract = false := by decide

/-- R134: CLEAR PLATE FAULT puts the named plate into HOLD. -/
theorem test_clearPlateFault :
    ((run .clearPlateFault (asks .cab 0x26 [2] (State.reset.setPlate .bf { state := .fault }))).plate .bf).state = .hold
    := by decide

/-! ## Drives (the worked sequence of 6) -/

/-- A drive A that runs at 235 with a stall 30,000 ms before time 0, here time 30,000 ms. -/
def stalling : State :=
  let s := { worked with clock := 30800000, align := { worked.align with diff := -15 } }
  let s := { s with demand := { s.demand with expired := false } }
  s.setWheel .a { s.drives.a with
    state := .running, stalls := [0], confirm := some 30800000
    motor := { s.drives.a.motor with target := 235, working := 235 } }

/-- 6's worked sequence at 800 ms: the second entry of the list, STALL_REVERSE, direction CHANGING. -/
theorem test_stall :
    let d := (run (.stallConfirmExpiry .a) stalling).wheel .a
    d.state = .stallReverse ∧ d.dirStatus = .changing ∧ d.stalls = [0, 30800] := by decide

/-- 6's worked sequence at 815 ms: beside a reversing drive the base is 50, and B's target is 50 + 15. -/
theorem test_companion : wheelTarget (run (.stallConfirmExpiry .a) stalling) .b = 65 := by decide

/-- 6's worked sequence at 805 ms: the working demand falls by the ramp step 5. -/
theorem test_loop_pass :
    ((run (.loopTimerExpiry .a) (run (.stallConfirmExpiry .a) stalling)).wheel .a).motor.working = 230 := by decide

/-- 6's worked sequence at 1,745 ms: at rest with the valve closed the output flips and the reverse timer starts. -/
theorem test_flip :
    let s := run (.stallConfirmExpiry .a) stalling
    let d := (run (.loopTimerExpiry .a) (s.setMotor .a { (s.motor .a) with working := 0 })).wheel .a
    d.dirOut = .reverse ∧ d.reverseTimer = some 33800000 := by decide

/-- R115: the reverse timer expiry gives STALL_RESUME with the direction CHANGING. -/
theorem test_reverse_expiry :
    let s := State.reset.setWheel .a { state := .stallReverse, dirOut := .reverse, reverseTimer := some 5 }
    ((run (.reverseTimerExpiry .a) s).wheel .a).state = .stallResume
      ∧ ((run (.reverseTimerExpiry .a) s).wheel .a).dirStatus = .changing := by decide

/-- R117: RESTART DRIVE takes a LOCKED_OUT drive to STOPPED with its list empty. -/
theorem test_restartDrive :
    let d := (run .restartDrive (asks .cab 0x25 [0] (State.reset.setWheel .a { state := .lockedOut, stalls := [1, 2, 3] }))).wheel .a
    d.state = .stopped ∧ d.stalls = [] := by decide

/-- R101: with 64 pulses a period of 2,000,000 µs is a speed of 4 (6's worked sequence). -/
theorem test_speed : speedOf 2000000 64 = 4 := by decide

/-- R101: an edge 199 µs after the last accepted one is ignored. -/
theorem test_pickup_ignored :
    let s := State.reset.setMotor .p { lastEdge := some 0, noSpeed := false, speed := 77 }
    (run (.pickupEdge .p 199) s).drives.p.motor = s.drives.p.motor := by decide

/-- R102: a pickup timeout makes the speed 0. -/
theorem test_pickup_timeout :
    ((run (.pickupTimeout .b) (State.reset.setMotor .b { speed := 77, pickupTimer := some 9 })).motor .b).speed = 0 := by
  decide

/-- R110: a PWM period start applies the computed duty. -/
theorem test_pwm :
    ((run .pwmPeriodStart (State.reset.setMotor .p { computed := 400 })).motor .p).applied = 400 := by decide

/-- R105, R118: a flow demand of 7,200 with 800 mL a turn is a target of 9,000, and drive P runs. -/
theorem test_pump_pass :
    let s := State.reset
    let t := run (.loopTimerExpiry .p) { s with demand := { s.demand with pump := { s.demand.pump with flow := 7200 } } }
    t.drives.p.motor.target = 9000 ∧ t.drives.p.state = .running ∧ t.ret.state = .priming := by decide

/-- R120: the loaded-time timer adds 1 for a loaded drive in an ACTIVE panel. -/
theorem test_loaded_time :
    ((run .loadedTimeExpiry ((atCount 20000 41).setWheel .b { loaded := true })).wheel .b).loadedTime.value = 1 := by decide

/-- R121: 3,300 counts are 80 %, the fourth band. -/
theorem test_band : bandOf 3300 = 3 := by decide

/-- R123: READ TALLIES carries the revolution counter of drive A first. -/
theorem test_readTallies :
    (replied .plant (run .readTallies (asks .plant 0x45 [] (State.reset.setMotor .a { rev := { value := 258 } })))).map
      (fun r => r.2.2.take 3) = some [0, 1, 2] := by decide

/-- R123: CLEAR TALLIES is taken from the Record link only. -/
theorem test_clearTallies :
    (run .clearTallies (asks .record 0x54 [] (State.reset.setMotor .a { rev := { value := 258 } }))).drives.a.motor.rev.value
        = 0
      ∧ replied .cab (run .clearTallies (asks .cab 0x54 [] State.reset)) = some (.refused, .notPermitted, []) := by decide

/-! ## Readouts and archive (R172, R175 to R182) -/

/-- 12.5: READ STATUS carries the panel state first, in 192 bytes without a stage record. -/
theorem test_readStatus :
    (replied .plant (run .readStatus (asks .plant 0x40 [] (atCount 20000 41)))).map
      (fun r => (r.2.2.take 1, r.2.2.length)) = some ([1], 192) := by decide +kernel

/-- 12.5: READ DEMANDS carries the base speed first. -/
theorem test_readDemands :
    (replied .plant (run .readDemands (asks .plant 0x44 [] worked))).map (fun r => r.2.2.take 4) = some [0, 0, 0, 250] := by
  decide +kernel

/-- 11's worked sequence: slot 2 with pages 0 to 16, HELD. -/
def held : State :=
  State.reset.setSlot 2 { state := .held, panelId := some 9, pageCount := some 17, readMarks := 0xFFFE#65
                          pages := List.replicate 17 [0xAA] }

/-- 11's worked sequence at 700 ms: a read from page 16 with count 2 returns pages 16 and 0, and releases the slot. -/
theorem test_readArchive :
    let t := run .readArchive (asks .record 0x50 [2, 16, 2] held)
    (t.slot 2).state = .released ∧ replied .record t = some (.done, .none, [16, 0, 1, 0xAA, 0, 0, 1, 0xAA]) := by
  decide +kernel

/-- 11's worked sequence at 200 ms: ERASE SLOT of a HELD slot is refused NOT_RELEASED. -/
theorem test_eraseSlot_held :
    replied .record (run .eraseSlot (asks .record 0x52 [2] held)) = some (.refused, .notReleased, []) := by decide

/-- 11's worked sequence at 800 to 1,200 ms: the erase takes 400 ms and leaves the slot EMPTY. -/
theorem test_erase :
    let t := run .eraseSlot (asks .record 0x52 [0] (State.reset.setSlot 0 { state := .released }))
    t.archive.engine = .erase 0 400000 ∧ (run (.eraseCompletion true) t).slot 0 = { state := .empty } := by decide

/-- R179: WIPE ARCHIVE takes HELD slots too. -/
theorem test_wipe : (run .wipeArchive (asks .record 0x53 [] held)).archive.engine = .wipe 2 [] 400000 := by decide

/-- 12.5: ARCHIVE STATUS is 8 × 15 bytes and the engine's 5. -/
theorem test_archiveStatus :
    (replied .record (run .archiveStatus (asks .record 0x51 [] held))).map (fun r => r.2.2.length) = some 125 := by
  decide +kernel

/-- R176, 12.4: the header page has 101 bytes, with the station count 1 after the 31 of the geometry record. -/
theorem test_headerPage :
    (headerPage State.reset).length = 101 ∧ ((headerPage State.reset).drop 31).take 2 = [0, 1] := by decide

/-- R4, 12.4: a panel of one station has one station page, and 17 stations have two; a page has 16 entries of 24
bytes. -/
theorem test_stationPages :
    stationPages State.reset.geometry.stations = 1 ∧ stationPages 17 = 2
      ∧ (stationEntries State.reset.table.records 0 16).map (·.length) = List.replicate 16 24 := by decide

/-- R177: the page after a verified one is due 5 ms later. -/
theorem test_pageProgram :
    let s := State.reset.setSlot 0 { state := .writing }
    (run (.pageProgramCompletion true) (s.setEngine (.programming 0 0 [[1], [2]] 5000))).archive.engine
      = .programming 0 1 [[1], [2]] 10000 := by decide

/-! ## Witnesses: states and operands that meet the hypotheses of the statements, clause by clause -/

/-- The request waiting alone is the granted one. -/
theorem granted_asks {s : State} (l : Link) (kind : Byte) (p : List Byte) (h : s.resetLine = false)
    (e : s.links = {}) : Granted kind l (frame kind p) (asks l kind p s) := by
  refine ⟨by cases l <;> exact h, ?_, rfl⟩
  cases l <;> simp [grant, grantLink, asks, State.setLink, State.link, e, LinkState.waits, frame]

/-- The ranges of a group, from its finitely many values. -/
theorem inRanges_of {range : Nat → Int × Int} {vs : List Int}
    (h : ∀ i, (hi : i < vs.length) → (range (i + 1)).1 ≤ vs[i] ∧ vs[i] ≤ (range (i + 1)).2) : InRanges range vs := by
  intro i v hv
  obtain ⟨hi, rfl⟩ := List.getElem?_eq_some_iff.mp hv
  exact h i hi

/-- A state in which nothing holds the feed: an ACTIVE panel, drives RUNNING, a NORMAL return. -/
def feeding : State :=
  let r : HoldReasons := { panel := false, reference := false, ret := false, driveA := false, driveB := false, wheel := false }
  let s := worked
  let on : WheelDrive := { s.drives.a with state := .running, motor := { s.drives.a.motor with target := 250, working := 250 } }
  { s with
    depth := { s.depth with reasons := r, feedHold := false }
    ret := { s.ret with state := .normal }
    drives := { s.drives with a := on, b := on, p := { s.drives.p with state := .running } }
    demand := { s.demand with expired := false, life := some 2000000 } }

/-- A table in the middle of a walk: station 0 current, 1 and 2 stale, the cursor at 1, a buffer prepared for 0. -/
def walking : State :=
  let s := withRecords [rec 0 .settled 0, { rec 1 .opened 0 with stale := true }, { rec 2 .settled 0 with stale := true }]
    (atCount 20000 41)
  let q : Query := { first := 0, count := 1, range := 1 }
  { s with table := { s.table with
      walker := some { cursor := 1, due := 50 }
      holdCab := .prepared q [stationEntry s.table.records 0] } }

theorem feeding_law : FeedHoldLaw feeding := by constructor <;> decide

theorem feeding_converter : ConverterLaw feeding := by unfold ConverterLaw; decide

theorem walking_table : GeometryLaw walking ∧ TableLaw walking ∧ SummaryLaw walking := by
  refine ⟨?_, ?_, ?_⟩
  · unfold GeometryLaw; decide
  · unfold TableLaw; decide
  · unfold SummaryLaw; decide

theorem walking_buffer : BufferLaw walking := by
  intro l q b h
  cases l
  · injection h with h1 h2
    subst h1 h2
    decide +kernel
  · exact absurd (show Hold.free = _ from h) (by simp)
  · exact absurd (show Hold.free = _ from h) (by simp)

theorem walking_walker : WalkerLaw walking := by
  refine ⟨⟨⟨{ rec 1 .opened 0 with stale := true }, by simp [walking, withRecords], rfl⟩, by decide⟩, ?_⟩
  intro r hr hs
  have : r = rec 0 .settled 0 := by
    simp only [walking, withRecords, List.mem_cons, List.not_mem_nil, or_false] at hr
    rcases hr with rfl | rfl | rfl
    · rfl
    · exact absurd hs (by decide)
    · exact absurd hs (by decide)
  subst this
  refine ⟨fun _ => ⟨rfl, rfl⟩, fun p hp => ?_, fun h => absurd rfl h⟩
  exact absurd hp.2.1 (Nat.not_lt_zero _)

/-- An archive with no operation in flight and no slot that one would be on. -/
theorem archiveLaw_idle {s : State} (h8 : s.archive.slots.length = 8) (he : s.archive.engine = .idle)
    (hp : s.panel ≠ .closing) (hs : ∀ i, i < 8 → (s.slot i).state ≠ .writing ∧ (s.slot i).state ≠ .erasing) :
    ArchiveLaw s := by
  unfold ArchiveLaw
  simp only [he, reduceCtorEq, false_or, exists_false, iff_false]
  exact ⟨h8, fun i hi => (hs i hi).1, fun i hi => (hs i hi).2, hp, by simp, by simp⟩

/-- An archive with the close write of its slot 0 in progress. -/
def closing : State :=
  let s := (atCount 20000 41).setSlot 0 { state := .writing, panelId := some 0, pageCount := some 2 }
  { s.setEngine (.programming 0 1 [[1], [2]] 5000) with panel := .closing }

theorem closing_archive : ArchiveLaw closing := by
  refine ⟨rfl, fun i hi => ?_, fun i hi => ?_, by simp [closing, State.setEngine], by simp [closing, State.setEngine],
    by simp [closing, State.setEngine]⟩
  all_goals
    interval_cases i <;>
      simp [closing, State.setSlot, State.setEngine, State.slot, atCount, State.reset]

theorem test_witness_StepRunsFrontCommand : ∃ (s : State) (c : Instr) (rest : List Instr), s.pending = c :: rest :=
  ⟨{ State.reset with pending := [.warm, .cold] }, .warm, [.cold], rfl⟩

theorem test_witness_IdleStepTakesAReadyEvent :
    (∃ s : State, s.pending = [] ∧ s.resetLine = true)
    ∧ (∃ s : State, s.pending = [] ∧ s.resetLine = false ∧ ready s = [])
    ∧ ∃ s : State, s.pending = [] ∧ s.resetLine = false ∧ ready s ≠ [] :=
  ⟨⟨{ State.reset with resetLine := true }, rfl, rfl⟩, ⟨{ State.reset with clock := 3999 }, rfl, rfl, rfl⟩,
    ⟨{ State.reset with clock := 4000 }, rfl, rfl, List.cons_ne_nil _ _⟩⟩

theorem test_witness_ResetLineHoldsTheBlock :
    ∃ (s : State) (c : Instr), s.resetLine = true ∧ c ≠ .resetLineAssert ∧ c ≠ .cold :=
  ⟨{ State.reset with resetLine := true }, .encoderTransition true false, rfl, by decide, by decide⟩

theorem test_witness_WarmKeepsTheRecord :
    (∃ s : State, s.resetLine = false ∧ s.links.restarting = true ∧ s.links.cab.replies = [] ∧ s.depth.feedHold = true)
    ∧ ∃ s : State, s.resetLine = false ∧ s.links.restarting = true ∧ s.links.cab.replies = [] ∧ s.depth.feedHold = false :=
  ⟨⟨restarted State.reset, rfl, rfl, rfl, rfl⟩, ⟨restarted feeding, rfl, rfl, rfl, rfl⟩⟩

theorem test_witness_StepKeepsFeedHoldLaw : ∃ s t : State, FeedHoldLaw s ∧ ConverterLaw s ∧ step s = .next t :=
  ⟨{ feeding with pending := [.wheelDemandExpiry] }, _, by constructor <;> decide, by unfold ConverterLaw; decide, rfl⟩

/-- A walk with a hold that waits for its stale record. -/
def walkingHeld : State :=
  { walking with table := { walking.table with holdPlant := .waiting { first := 1, count := 1, range := 1 } } }

theorem walkingHeld_waiting : WaitingLaw walkingHeld := by
  intro l q h
  cases l
  · exact absurd (show Hold.prepared _ _ = _ from h) (by simp)
  · injection (show Hold.waiting _ = _ from h) with h
    subst h
    exact ⟨{ rec 1 .opened 0 with stale := true }, by simp [walkingHeld, walking, withRecords], by decide⟩
  · exact absurd (show Hold.free = _ from h) (by simp)

theorem walkingHeld_buffer : BufferLaw walkingHeld := by
  intro l q b h
  cases l
  · exact walking_buffer .cab q b h
  · exact absurd (show Hold.waiting _ = _ from h) (by simp)
  · exact absurd (show Hold.free = _ from h) (by simp)

theorem test_witness_StepKeepsTableSummaryAndBufferLaws :
    ∃ s t : State, GeometryLaw s ∧ TableLaw s ∧ SummaryLaw s ∧ BufferLaw s ∧ WaitingLaw s
      ∧ (∃ l q, s.table.hold l = .waiting q) ∧ (∃ l q b, s.table.hold l = .prepared q b) ∧ step s = .next t :=
  ⟨{ walkingHeld with pending := [.restitchStepCompletion] }, _, walking_table.1, walking_table.2.1, walking_table.2.2,
    walkingHeld_buffer, walkingHeld_waiting, ⟨.plant, _, rfl⟩, ⟨.cab, _, _, rfl⟩, rfl⟩

/-- A table with an offset at the bound of its station, and an accumulator with a sum at its least value. -/
def farOut : State :=
  let s := withRecords [{ rec 240 .settled 2457600000 with meanX := -2048 }] (atCount 20000 41)
  { s with table := { s.table with acc := { sumX := -2048, count := 1 } } }

theorem farOut_offsets : OffsetLaw farOut := by
  refine ⟨fun r hr => ?_, ?_, fun i h => absurd (show none = some i from h) (by simp), fun x h => absurd h (by simp [farOut, withRecords, atCount, State.reset])⟩
  · have : r = { rec 240 .settled 2457600000 with meanX := -2048 } := by
      simpa [farOut, withRecords] using hr
    subst this
    unfold InIncl OffsetBound
    decide
  · unfold InSum; decide

theorem test_witness_StepKeepsWalkerLaw :
    (∃ s t : State, GeometryLaw s ∧ TableLaw s ∧ WalkerLaw s ∧ step s = .next t)
    ∧ ∃ s t : State, GeometryLaw s ∧ TableLaw s ∧ OffsetLaw s ∧ step s = .next t :=
  ⟨⟨{ walking with pending := [.restitchStepCompletion] }, _, walking_table.1, walking_table.2.1, walking_walker, rfl⟩,
    ⟨{ farOut with pending := [.encoderTransition true false] }, _, by unfold GeometryLaw; decide,
      by unfold TableLaw; decide, farOut_offsets, rfl⟩⟩

theorem worked_demand : DemandLaw worked :=
  ⟨inRanges_of (by decide), inRanges_of (by decide), inRanges_of (by decide), inRanges_of (by decide)⟩

theorem test_witness_StepKeepsDemandAndDriveLaws :
    ∃ s t : State, DemandLaw s ∧ DifferentialLaw s ∧ DriveLaw s ∧ step s = .next t :=
  ⟨{ feeding with pending := [.loopTimerExpiry .a] }, _, worked_demand, by unfold DifferentialLaw; decide,
    by unfold DriveLaw MotorBounds; decide, rfl⟩

theorem feeding_outputs : PlateLaw feeding ∧ BacklogLaw feeding ∧ CounterLaw feeding ∧ QueueLaw feeding ∧ ReleaseLaw feeding := by
  refine ⟨⟨fun i => ?_, fun i => ?_⟩, ?_, ?_, ⟨fun l => ?_, by decide⟩, ?_⟩
  · cases i <;> (unfold PlateOutputs; decide)
  · cases i <;> decide
  · unfold BacklogLaw; decide
  · unfold CounterLaw; decide
  · cases l <;> decide
  · unfold ReleaseLaw; decide

theorem test_witness_StepKeepsOutputsAndBounds :
    ∃ s t : State, PlateLaw s ∧ BacklogLaw s ∧ CounterLaw s ∧ QueueLaw s ∧ ReleaseLaw s ∧ step s = .next t :=
  ⟨{ feeding with pending := [.pickupEdge .a 5000] }, _, feeding_outputs.1, feeding_outputs.2.1, feeding_outputs.2.2.1,
    feeding_outputs.2.2.2.1, feeding_outputs.2.2.2.2, rfl⟩

theorem test_witness_StepKeepsArchiveLaw : ∃ s t : State, ArchiveLaw s ∧ step s = .next t :=
  ⟨{ closing with pending := [.pageProgramCompletion true] }, _, closing_archive, rfl⟩

/-- A drive A that stands still with its valve closed and its direction CHANGING. -/
def flipping : State :=
  let s := run (.stallConfirmExpiry .a) stalling
  s.setMotor .a { s.motor .a with working := 0, target := 0 }

theorem test_witness_DirectionChangesOnlyWithValveClosed :
    ∃ (c : Instr) (s t : State) (w : WheelId), exec c s = .next t ∧ (t.wheel w).dirOut ≠ (s.wheel w).dirOut :=
  ⟨.loopTimerExpiry .a, flipping, _, .a, rfl, by decide⟩

theorem test_witness_CountersDecreaseOnlyWhenZeroed :
    (∃ (c : Instr) (s t : State), exec c s = .next t ∧ CounterLaw s ∧ t.drives.a.motor.rev.value = s.drives.a.motor.rev.value + 1)
    ∧ ∃ (c : Instr) (s t : State), exec c s = .next t ∧ CounterLaw s ∧ t.drives.a.motor.rev.value < s.drives.a.motor.rev.value := by
  refine ⟨⟨.pickupEdge .a 0, feeding, _, rfl, feeding_outputs.2.2.1, by decide⟩,
    ⟨.clearTallies, asks .record 0x54 [] (feeding.setMotor .a { rev := { value := 16777215 } }), _, rfl, ?_, by decide⟩⟩
  unfold CounterLaw; decide

/-- A HELD slot 2 that one more read releases, with Plant having released the PUMP group. -/
def resting : State :=
  { held with demand := { held.demand with releasedPlant := true }, panel := .closed }

theorem resting_archive (l : Link) (k : Byte) (p : List Byte) : ArchiveLaw (asks l k p resting) := by
  have e : (asks l k p resting).archive = resting.archive ∧ (asks l k p resting).panel = .closed := by
    cases l <;> exact ⟨rfl, rfl⟩
  have f : ∀ i, (asks l k p resting).slot i = resting.slot i := fun i => by unfold State.slot; rw [e.1]
  refine archiveLaw_idle (by rw [e.1]; decide) (by rw [e.1]; decide) (by rw [e.2]; decide) fun i hi => ?_
  rw [f]
  interval_cases i <;> decide

theorem test_witness_RecordPanelOwnerAndSlotChangeOnlyAsNamed :
    (∃ s t : State, ArchiveLaw s ∧ exec .openPanel s = .next t ∧ t.geometry ≠ s.geometry ∧ t.panel ≠ s.panel)
    ∧ (∃ s t : State, ArchiveLaw s ∧ exec .abandonPanel s = .next t ∧ t.panel ≠ s.panel)
    ∧ (∃ s t : State, ArchiveLaw s ∧ exec (.pageProgramCompletion true) s = .next t ∧ t.panel ≠ s.panel)
    ∧ (∃ s t : State, ArchiveLaw s ∧ exec .takePump s = .next t ∧ t.demand.owner ≠ s.demand.owner)
    ∧ (∃ s t : State, ArchiveLaw s ∧ exec .readArchive s = .next t ∧ (s.slot 2).state = .held
        ∧ (t.slot 2).state = .released)
    ∧ (∃ s t : State, ArchiveLaw s ∧ exec .wipeArchive s = .next t ∧ (s.slot 2).state = .held
        ∧ (t.slot 2).state = .erasing)
    ∧ ∃ s t : State, ArchiveLaw s ∧ exec .extendDepth s = .next t ∧ t.geometry ≠ s.geometry := by
  refine ⟨⟨asks .cab 0x10 (geometryField geo) resting, _, resting_archive _ _ _, rfl, ?_, ?_⟩,
    ⟨asks .cab 0x12 [] resting, _, resting_archive _ _ _, rfl, ?_⟩, ⟨closing, _, closing_archive, rfl, ?_⟩,
    ⟨asks .cab 0x27 [] resting, _, resting_archive _ _ _, rfl, ?_⟩,
    ⟨asks .record 0x50 [2, 16, 2] resting, _, resting_archive _ _ _, rfl, rfl, ?_⟩,
    ⟨asks .record 0x53 [] resting, _, resting_archive _ _ _, rfl, rfl, ?_⟩,
    ⟨asks .cab 0x13 (field 4 60200) (atCount 0 0), _, ?_, rfl, ?_⟩⟩
  any_goals decide +kernel
  refine archiveLaw_idle (by decide) (by decide) (by decide) fun i hi => ?_
  interval_cases i <;> decide

/-! ### Links -/

/-- A link with this many frames waiting. -/
def queued (n : Nat) : State :=
  State.reset.setLink .plant { State.reset.links.plant with rx := List.replicate n (frame 0x40 []) }

theorem test_witness_ValidFrameJoinsQueue :
    (∃ (s : State) (idle : List Byte) (f : Frame), s.resetLine = false ∧ (s.link .plant).receiver = none ∧ marker ∉ idle
      ∧ f.payload.length ≤ 240 ∧ (s.link .plant).rx.length = 3)
    ∧ ∃ (s : State) (idle : List Byte) (f : Frame), s.resetLine = false ∧ (s.link .plant).receiver = none
      ∧ marker ∉ idle ∧ f.payload.length ≤ 240 ∧ (s.link .plant).rx.length = 4 :=
  ⟨⟨queued 3, [0, 0xA4], frame 0x40 [], rfl, rfl, by decide, by decide, rfl⟩,
    ⟨queued 4, [], frame 0x40 (List.replicate 240 0), rfl, rfl, by decide, by decide +kernel, rfl⟩⟩

theorem test_witness_BadFrameIsDiscarded :
    (∃ (s : State) (l : Link) (len : Byte), s.resetLine = false ∧ (s.link l).receiver = none ∧ 240 < len.toNat)
    ∧ (∃ (s : State) (l : Link) (seq kind len c1 c2 : Byte) (payload : List Byte), s.resetLine = false
        ∧ (s.link l).receiver = none ∧ payload.length = len.toNat ∧ len.toNat ≤ 240
        ∧ [c1, c2] ≠ checkBytes (seq :: kind :: len :: payload))
    ∧ ∃ (s : State) (l : Link) (due : Nat), s.resetLine = false ∧ (s.link l).bytePause = some due :=
  ⟨⟨State.reset, .cab, 241, rfl, rfl, by decide⟩,
    ⟨State.reset, .cab, 1, 0x40, 0, 0xF6, 0x61, [], rfl, rfl, rfl, by decide, by decide +kernel⟩,
    ⟨run (.frameReceived .cab [marker]) State.reset, .cab, 10001, rfl, rfl⟩⟩

theorem test_witness_ReplyLeavesAndLinkFallsSilent :
    (∃ (s : State) (l : Link) (r : Reply) (rs : List Reply), s.resetLine = false ∧ (s.link l).replies = r :: rs)
    ∧ ∃ (s : State) (l : Link) (due : Nat), s.resetLine = false ∧ (s.link l).silence = some due :=
  ⟨⟨run .readFlags (asks .cab 0x46 [] State.reset), .cab, _, _, rfl, rfl⟩, ⟨State.reset, .cab, 3000000, rfl, rfl⟩⟩

/-- Requests waiting on every link, this many level-0 grants counted. -/
def contended (n : Nat) : State :=
  let s := asks .cab 0x40 [] (asks .plant 0x40 [] (asks .record 0x40 [] State.reset))
  { s with links := { s.links with levelZeroGrants := n } }

theorem test_witness_ArbiterGrantsByTurn :
    (∃ s : State, s.links.restarting = true)
    ∧ (∃ s f, s.links.restarting = false ∧ grant s = some (.cab, f))
    ∧ (∃ s f, s.links.restarting = false ∧ grant s = some (.record, f))
    ∧ ∃ s f, s.links.restarting = false ∧ grant s = some (.plant, f) :=
  ⟨⟨{ State.reset with links := { restarting := true } }, rfl⟩, ⟨contended 3, _, rfl, rfl⟩, ⟨contended 4, _, rfl, rfl⟩,
    ⟨asks .plant 0x40 [] State.reset, _, rfl, rfl⟩⟩

theorem no_request_of_kind_0x55 (c : Instr) (kind : Byte) (acc : Access) (h : requestRow c = some (kind, acc)) :
    kind ≠ 0x55 := by
  cases c <;> simp [requestRow] at h <;> obtain ⟨rfl, -⟩ := h <;> decide

theorem test_witness_WrongLinkLengthAndKindAreRefused :
    (∃ (s : State) (f : Frame), Granted 0x10 .plant f s ∧ barred s.demand.owner .plant .cabOnly = some .notPermitted)
    ∧ (∃ (s : State) (f : Frame), Granted 0x31 .cab f s ∧ barred s.demand.owner .cab .pumpOwner = some .notOwner)
    ∧ (∃ (s : State) (f : Frame), Granted 0x10 .cab f s ∧ requestLength .openPanel = some 31
        ∧ barred s.demand.owner .cab .cabOnly = none ∧ f.payload.length ≠ 31)
    ∧ ∃ (s : State) (f : Frame), Granted f.kind .record f s
        ∧ ∀ c kind acc, requestRow c = some (kind, acc) → kind ≠ f.kind :=
  ⟨⟨asks .plant 0x10 [] State.reset, _, granted_asks _ _ _ rfl rfl, rfl⟩,
    ⟨asks .cab 0x31 [] State.reset, _, granted_asks _ _ _ rfl rfl, rfl⟩,
    ⟨asks .cab 0x10 (List.replicate 30 0) State.reset, _, granted_asks _ _ _ rfl rfl, rfl, rfl, by decide⟩,
    ⟨asks .record 0x55 [] State.reset, _, granted_asks _ _ _ rfl rfl, no_request_of_kind_0x55⟩⟩

theorem test_witness_EventsThatAreNotDueHaveNoEffect :
    ∃ s : State, (∀ l f, grant s = some (l, f) → f.kind ≠ 0x10) ∧ (s.link .cab).bytePause = none
      ∧ (s.link .cab).silence = none ∧ (∀ i p im due, s.archive.engine ≠ .programming i p im due)
      ∧ (∀ i due, s.archive.engine ≠ .erase i due) ∧ (∀ i rest due, s.archive.engine ≠ .wipe i rest due)
      ∧ s.acq.scanTimer = none ∧ s.acq.conversion = none ∧ s.table.walker = none
      ∧ (s.motor .a).pickupTimer = none ∧ (s.wheel .a).confirm = none ∧ (s.wheel .a).reverseTimer = none
      ∧ (s.plate .af).travel = none ∧ s.ret.staleTimer = none ∧ s.ret.confirm = none ∧ s.ret.recovery = none
      ∧ s.demand.life = none ∧ s.links.restarting = false ∧ (s.link .record).replies = [] := by
  refine ⟨asks .plant 0x11 [] (State.setLink
      { State.reset with
        acq := { scanTimer := none, conversion := none, state := .off }
        archive := { engine := .reserved 0 } } .cab { silence := none }), ?_, rfl, rfl, by simp [asks, State.setLink],
    by simp [asks, State.setLink], by simp [asks, State.setLink], rfl, rfl, rfl, rfl, rfl, rfl, rfl, rfl, rfl, rfl, rfl, rfl,
    rfl⟩
  intro l f h
  injection h with h
  injection h with _ h
  subst h
  decide

/-! ### Panels and depth -/

theorem geo_ok (n : Nat) : FieldOk geo n := fieldOk_of_check (by decide) n

theorem test_witness_OpenPanelStartsAPanel :
    (∃ (s : State) (l : Link) (f : Frame), Granted 0x10 l f s ∧ l ≠ .cab)
    ∧ (∃ (s : State) (f : Frame), Granted 0x10 .cab f s ∧ f.payload.length = 32)
    ∧ (∃ (s : State) (f : Frame), Granted 0x10 .cab f s ∧ f.payload.length = 31 ∧ s.panel = .closing)
    ∧ (∃ (s : State) (f : Frame) (n : Nat), Granted 0x10 .cab f s ∧ f.payload.length = 31 ∧ s.panel = .idle
        ∧ ¬FieldOk (geometryOf f.payload) n ∧ ∀ m, m < n → FieldOk (geometryOf f.payload) m)
    ∧ (∃ (s : State) (f : Frame), Granted 0x10 .cab f s ∧ f.payload.length = 31 ∧ s.panel = .closed
        ∧ (∀ n, FieldOk (geometryOf f.payload) n) ∧ (geometryOf f.payload).encoderStep = s.geometry.encoderStep
        ∧ s.depth.ref ≠ .unreferenced)
    ∧ ∃ (s : State) (f : Frame), Granted 0x10 .cab f s ∧ f.payload.length = 31 ∧ s.panel = .idle
        ∧ (∀ n, FieldOk (geometryOf f.payload) n) ∧ (geometryOf f.payload).encoderStep ≠ s.geometry.encoderStep
        ∧ 1000000000 < |s.depth.count * (geometryOf f.payload).encoderStep| := by
  refine ⟨⟨asks .plant 0x10 [] State.reset, .plant, _, granted_asks _ _ _ rfl rfl, by decide⟩,
    ⟨asks .cab 0x10 (List.replicate 32 0) State.reset, _, granted_asks _ _ _ rfl rfl, rfl⟩,
    ⟨asks .cab 0x10 (geometryField geo) closing, _, granted_asks _ _ _ rfl rfl, by decide, rfl⟩,
    ⟨asks .cab 0x10 (geometryField { geo with tolerance := 201 }) State.reset, _, 14, granted_asks _ _ _ rfl rfl,
      by decide, rfl, ?_, ?_⟩,
    ⟨asks .cab 0x10 (geometryField geo) { atCount 20000 41 with panel := .closed }, _, granted_asks _ _ _ rfl rfl,
      by decide, rfl, fieldOk_of_check (by decide +kernel), by decide, by decide⟩,
    ⟨asks .cab 0x10 (geometryField { geo with encoderStep := 10000 }) { atCount 100001 0 with panel := .idle }, _,
      granted_asks _ _ _ rfl rfl, by decide, rfl, fieldOk_of_check (by decide +kernel), by decide, by decide⟩⟩
  · have e : (geometryOf (geometryField { geo with tolerance := 201 })).tolerance = 201 := by decide
    intro h
    have h2 : 1 ≤ (201 : Int) ∧ (201 : Int) ≤ 200 := e ▸ h
    omega
  · intro m hm
    have e : geometryOf (geometryField { geo with tolerance := 201 }) = { geo with tolerance := 201 } := by decide +kernel
    have g := geo_ok m
    change FieldOk (geometryOf (geometryField { geo with tolerance := 201 })) m
    rw [e]
    interval_cases m <;> exact g

/-- An OPEN record, the walker IDLE, and a hold that waits for the record. -/
def openHeld : State :=
  let s := withRecords [rec 0 .opened 0] (atCount 20000 41)
  { s with table := { s.table with holdPlant := .waiting { first := 0, count := 1, range := 1 } } }

theorem openHeld_walker : WalkerLaw openHeld := by
  have e : openHeld.table.records = [rec 0 .opened 0] := rfl
  refine ⟨fun r hr => ?_, fun r hr _ => ?_⟩ <;> rw [e, List.mem_singleton] at hr <;> subst hr
  · rfl
  · exact ⟨fun _ => ⟨rfl, rfl⟩, fun p hp => absurd hp.2.1 (Nat.not_lt_zero _), fun h => absurd rfl h⟩

theorem openHeld_waiting : WaitingLaw openHeld := by
  intro l q h
  cases l
  · exact absurd (show Hold.free = _ from h) (by simp)
  · injection (show Hold.waiting _ = _ from h) with h
    subst h
    exact ⟨rec 0 .opened 0, by simp [openHeld, withRecords], by decide⟩
  · exact absurd (show Hold.free = _ from h) (by simp)

theorem test_witness_ClosePanelReservesASlot :
    (∃ (s : State) (f : Frame), Granted 0x11 .cab f s ∧ f.payload = [] ∧ s.panel ≠ .active)
    ∧ (∃ (s : State) (f : Frame), Granted 0x11 .cab f s ∧ f.payload = [] ∧ s.panel = .active ∧ s.archive.engine ≠ .idle)
    ∧ (∃ (s : State) (f : Frame), Granted 0x11 .cab f s ∧ f.payload = [] ∧ s.panel = .active ∧ s.archive.engine = .idle
        ∧ ∀ x ∈ s.archive.slots, x.state ≠ .empty)
    ∧ (∃ (s : State) (f : Frame) (i : Nat) (x : Slot), Granted 0x11 .cab f s ∧ f.payload = [] ∧ s.panel = .active
        ∧ s.archive.engine = .idle ∧ s.archive.slots[i]? = some x ∧ x.state = .empty
        ∧ (∀ j y, j < i → s.archive.slots[j]? = some y → y.state ≠ .empty) ∧ TableLaw s ∧ WalkerLaw s
        ∧ s.table.walker ≠ none)
    ∧ ∃ (s : State) (f : Frame) (x : Slot), Granted 0x11 .cab f s ∧ f.payload = [] ∧ s.panel = .active
        ∧ s.archive.engine = .idle ∧ s.archive.slots[0]? = some x ∧ x.state = .empty
        ∧ TableLaw s ∧ WalkerLaw s ∧ s.table.walker = none ∧ WaitingLaw s ∧ (∃ l q, s.table.hold l = .waiting q) := by
  refine ⟨⟨asks .cab 0x11 [] State.reset, _, granted_asks _ _ _ rfl rfl, rfl, by decide⟩,
    ⟨asks .cab 0x11 [] ((atCount 0 0).setEngine (.erase 0 5)), _, granted_asks _ _ _ rfl rfl, rfl, rfl, by decide⟩,
    ⟨asks .cab 0x11 [] { atCount 0 0 with archive := { slots := List.replicate 8 { state := .held } } }, _,
      granted_asks _ _ _ rfl rfl, rfl, rfl, rfl, by decide⟩,
    ⟨asks .cab 0x11 [] (walking.setSlot 0 { state := .held }), _, 1, {}, granted_asks _ _ _ rfl rfl, rfl, rfl, rfl, rfl,
      rfl, ?_, walking_table.2.1, walking_walker, by decide⟩,
    ⟨asks .cab 0x11 [] openHeld, _, {}, granted_asks _ _ _ rfl rfl, rfl, rfl, rfl, rfl, rfl, ?_, openHeld_walker, rfl,
      openHeld_waiting, .plant, _, rfl⟩⟩
  · intro j y hj hy
    obtain rfl : j = 0 := by omega
    injection hy with hy
    subst hy
    decide
  · unfold TableLaw; decide

theorem test_witness_AbandonAndExtend :
    (∃ (s : State) (f : Frame), Granted 0x12 .cab f s ∧ f.payload = [] ∧ s.panel = .closed)
    ∧ (∃ (s : State) (f : Frame) (a b c d : Byte), Granted 0x13 .cab f s ∧ f.payload = [a, b, c, d] ∧ s.panel = .idle)
    ∧ (∃ (s : State) (f : Frame) (a b c d : Byte), Granted 0x13 .cab f s ∧ f.payload = [a, b, c, d] ∧ s.panel = .active
        ∧ ¬s.geometry.design < four a b c d)
    ∧ ∃ (s : State) (f : Frame) (a b c d : Byte), Granted 0x13 .cab f s ∧ f.payload = [a, b, c, d] ∧ s.panel = .active
        ∧ s.geometry.design < four a b c d ∧ four a b c d - s.geometry.start ≤ 200000
        ∧ { s.geometry with design := four a b c d }.stations ≤ 1024 ∧ s.geometry.start ≤ four a b c d :=
  ⟨⟨asks .cab 0x12 [] resting, _, granted_asks _ _ _ rfl rfl, rfl, rfl⟩,
    ⟨asks .cab 0x13 [0, 0, 0, 1] State.reset, _, 0, 0, 0, 1, granted_asks _ _ _ rfl rfl, rfl, rfl⟩,
    ⟨asks .cab 0x13 [0, 0, 0xEA, 0x60] (atCount 0 0), _, 0, 0, 0xEA, 0x60, granted_asks _ _ _ rfl rfl, rfl, rfl, by decide⟩,
    ⟨asks .cab 0x13 [0, 0, 0xEA, 0x61] (atCount 0 0), _, 0, 0, 0xEA, 0x61, granted_asks _ _ _ rfl rfl, rfl, rfl, by decide,
      by decide, by decide, by decide⟩⟩

theorem test_witness_SetDepthReferences :
    (∃ (s : State) (f : Frame) (a b c d : Byte), Granted 0x14 .cab f s ∧ f.payload = [a, b, c, d]
      ∧ signedFour a b c d = 400001)
    ∧ (∃ (s : State) (f : Frame) (a b c d : Byte), Granted 0x14 .cab f s ∧ f.payload = [a, b, c, d]
      ∧ signedFour a b c d = -100001)
    ∧ (∃ (s : State) (f : Frame) (a b c d : Byte), Granted 0x14 .cab f s ∧ f.payload = [a, b, c, d]
      ∧ signedFour a b c d = 400000 ∧ 0 < s.geometry.encoderStep ∧ s.panel = .closing)
    ∧ ∃ (s : State) (f : Frame) (a b c d : Byte), Granted 0x14 .cab f s ∧ f.payload = [a, b, c, d]
      ∧ signedFour a b c d = -100000 ∧ 0 < s.geometry.encoderStep ∧ s.panel ≠ .closing :=
  ⟨⟨asks .cab 0x14 [0, 6, 0x1A, 0x81] State.reset, _, 0, 6, 0x1A, 0x81, granted_asks _ _ _ rfl rfl, rfl, by decide⟩,
    ⟨asks .cab 0x14 [0xFF, 0xFE, 0x79, 0x5F] State.reset, _, 0xFF, 0xFE, 0x79, 0x5F, granted_asks _ _ _ rfl rfl, rfl,
      by decide⟩,
    ⟨asks .cab 0x14 [0, 6, 0x1A, 0x80] closing, _, 0, 6, 0x1A, 0x80, granted_asks _ _ _ rfl rfl, rfl, by decide, by decide,
      rfl⟩,
    ⟨asks .cab 0x14 [0xFF, 0xFE, 0x79, 0x60] State.reset, _, 0xFF, 0xFE, 0x79, 0x60, granted_asks _ _ _ rfl rfl, rfl,
      by decide, by decide, by decide⟩⟩

/-- The bound of the depth is reached at this count with a step of 1,000 µm. -/
theorem test_witness_EncoderMovesTheCount :
    (∃ (s : State) (first second : Bool), s.resetLine = false
      ∧ phaseOf first second = (phaseOf s.depth.lineA s.depth.lineB + 1) % 4
      ∧ |(s.depth.count + 1) * s.geometry.encoderStep| ≤ 1000000000)
    ∧ (∃ (s : State) (first second : Bool), s.resetLine = false
      ∧ phaseOf s.depth.lineA s.depth.lineB = (phaseOf first second + 1) % 4
      ∧ |(s.depth.count + -1) * s.geometry.encoderStep| ≤ 1000000000)
    ∧ (∃ (s : State) (first second : Bool), s.resetLine = false
      ∧ phaseOf first second = (phaseOf s.depth.lineA s.depth.lineB + 2) % 4 ∧ FeedHoldLaw s)
    ∧ (∃ (s : State) (first second : Bool), s.resetLine = false
      ∧ phaseOf first second = (phaseOf s.depth.lineA s.depth.lineB + 1) % 4
      ∧ ¬|(s.depth.count + 1) * s.geometry.encoderStep| ≤ 1000000000)
    ∧ (∃ (s : State) (first second : Bool), s.resetLine = false
      ∧ phaseOf s.depth.lineA s.depth.lineB = (phaseOf first second + 1) % 4
      ∧ ¬|(s.depth.count + -1) * s.geometry.encoderStep| ≤ 1000000000)
    ∧ (∃ (s : State) (first second : Bool), s.resetLine = false
      ∧ phaseOf first second = phaseOf s.depth.lineA s.depth.lineB)
    ∧ ∃ (s : State) (first second : Bool), StepsBy s first second 1 ∧ s.panel = .active ∧ s.depth.ref ≠ .unreferenced
      ∧ s.depth.floor < s.geometry.stations ∧ ¬Passes s (s.geometry.start + s.depth.floor * s.geometry.spacing)
      ∧ ∀ k : Nat, k < s.geometry.stations →
        ¬Passes s (s.geometry.start + k * s.geometry.spacing + s.geometry.settleDistance) := by
  refine ⟨⟨atCount 999999 0, true, false, rfl, rfl, by decide⟩, ⟨atCount (-999999) 0, false, true, rfl, rfl, by decide⟩,
    ⟨feeding, true, true, rfl, rfl, feeding_law⟩, ⟨atCount 1000000 0, true, false, rfl, rfl, by decide⟩,
    ⟨atCount (-1000000) 0, false, true, rfl, rfl, by decide⟩, ⟨State.reset, false, false, rfl, rfl⟩,
    ⟨atCount 20000 41, true, false, ?_, rfl, by decide, by decide, ?_, ?_⟩⟩
  · unfold StepsBy; decide
  · unfold Passes; decide
  · intro k _ h
    simp only [Passes, atCount, geo, State.reset] at h
    omega

theorem test_witness_CrossingBuildsTheRecord :
    (∃ (s : State) (first second : Bool), StepsBy s first second 1 ∧ s.panel = .active ∧ s.depth.ref ≠ .unreferenced
      ∧ TableLaw s ∧ s.depth.floor < s.geometry.stations
      ∧ Passes s (s.geometry.start + s.depth.floor * s.geometry.spacing)
      ∧ ∀ j, j < s.geometry.stations →
        ¬Passes s (s.geometry.start + j * s.geometry.spacing + s.geometry.settleDistance))
    ∧ ∃ (s : State) (first second : Bool) (j : Nat), StepsBy s first second 1 ∧ s.panel = .active
      ∧ s.depth.ref ≠ .unreferenced ∧ TableLaw s ∧ s.depth.floor < s.geometry.stations
      ∧ Passes s (s.geometry.start + s.depth.floor * s.geometry.spacing) ∧ GeometryLaw s ∧ j < s.geometry.stations
      ∧ Passes s (s.geometry.start + j * s.geometry.spacing + s.geometry.settleDistance)
      ∧ ∃ r ∈ s.table.records, r.index = j ∧ r.state = .opened := by
  refine ⟨⟨{ atCount 59999 240 with geometry := { geo with settleDistance := 1100 } }, true, false, ?_, rfl, by decide, ?_,
      by decide, ?_, ?_⟩,
    ⟨withRecords [rec 35 .opened 0] (atCount 19999 40), true, false, 35, ?_, rfl, by decide, ?_, by decide, ?_, ?_,
      by decide, ?_, rec 35 .opened 0, by simp [withRecords], rfl, rfl⟩⟩
  · unfold StepsBy; decide
  · unfold TableLaw; decide
  · unfold Passes; decide
  · unfold Passes
    have e : ({ atCount 59999 240 with geometry := { geo with settleDistance := 1100 } } : State).geometry.stations = 241 := by
      decide
    rw [e]
    intro j hj h
    simp only [atCount, geo, State.reset] at h
    omega
  all_goals first | (unfold StepsBy; decide) | (unfold GeometryLaw; decide) | (unfold TableLaw; decide) | (unfold Passes; decide)

theorem test_witness_SettlementLineSettlesTheRecord :
    (∃ (s : State) (first second : Bool) (k : Nat), StepsBy s first second 1 ∧ s.panel = .closing
      ∧ s.depth.ref ≠ .unreferenced ∧ GeometryLaw s ∧ TableLaw s ∧ k < s.geometry.stations
      ∧ Passes s (s.geometry.start + k * s.geometry.spacing + s.geometry.settleDistance)
      ∧ ∀ r ∈ s.table.records, r.index = k → r.state = .settled)
    ∧ ∃ (s : State) (first second : Bool) (k : Nat), StepsBy s first second 1 ∧ s.panel = .active
      ∧ s.depth.ref ≠ .unreferenced ∧ GeometryLaw s ∧ TableLaw s ∧ k < s.geometry.stations
      ∧ Passes s (s.geometry.start + k * s.geometry.spacing + s.geometry.settleDistance)
      ∧ (s.depth.floor < s.geometry.stations → ¬Passes s (s.geometry.start + s.depth.floor * s.geometry.spacing))
      ∧ ∃ r ∈ s.table.records, r.index = k ∧ r.state = .opened := by
  refine ⟨⟨{ withRecords [rec 0 .settled 0] (atCount 12999 5) with panel := .closing }, true, false, 0, ?_, rfl, by decide,
      ?_, ?_, by decide, ?_, by decide⟩,
    ⟨withRecords [rec 0 .opened 0] (atCount 12999 6), true, false, 0, ?_, rfl, by decide, ?_, ?_, by decide, ?_, ?_,
      rec 0 .opened 0, by simp [withRecords], rfl, rfl⟩⟩
  all_goals first | (unfold StepsBy; decide) | (unfold GeometryLaw; decide) | (unfold TableLaw; decide) | (unfold Passes; decide)

theorem test_witness_RiseReArmsTheStation :
    (∃ (s : State) (first second : Bool), StepsBy s first second (-1) ∧ s.panel = .active ∧ s.depth.ref ≠ .unreferenced
      ∧ 0 < s.depth.floor ∧ (s.depth.count - 1) * s.geometry.encoderStep
        < (s.geometry.start + ((s.depth.floor : Int) - 1) * s.geometry.spacing - s.geometry.repassHeight) * 1000)
    ∧ ∃ (s : State) (first second : Bool), StepsBy s first second (-1) ∧ s.panel = .active
      ∧ s.depth.ref ≠ .unreferenced ∧ 0 < s.depth.floor ∧ ¬(s.depth.count - 1) * s.geometry.encoderStep
        < (s.geometry.start + ((s.depth.floor : Int) - 1) * s.geometry.spacing - s.geometry.repassHeight) * 1000 := by
  refine ⟨⟨atCount 11500 1, false, true, ?_, rfl, by decide, by decide, by decide⟩,
    ⟨atCount 11501 1, false, true, ?_, rfl, by decide, by decide, by decide⟩⟩
  all_goals (unfold StepsBy; decide)

theorem test_witness_FeedWindowMeasuresAndBalances :
    ∃ (s : State) (due : Nat), s.resetLine = false ∧ s.depth.windowTimer = some due ∧ 0 < s.depth.windowLength :=
  ⟨worked, 2000000, rfl, rfl, by decide⟩

/-! ### Return and demands -/

theorem test_witness_ReportReturnJudges :
    ∃ (s : State) (l : Link) (f : Frame) (q1 q2 r1 r2 u1 u2 : Byte), Granted 0x32 l f s
      ∧ barred s.demand.owner l .pumpOwner = none ∧ f.payload = [q1, q2, r1, r2, u1, u2] :=
  ⟨asks .plant 0x32 [0x1C, 0x20, 4, 0x60, 4, 0x24] worked, .plant, _, 0x1C, 0x20, 4, 0x60, 4, 0x24,
    granted_asks _ _ _ rfl rfl, rfl, rfl⟩

theorem test_witness_ReturnTimersChangeTheState :
    (∃ (s : State) (due : Nat), s.resetLine = false ∧ s.ret.staleTimer = some due ∧ s.ret.state = .normal)
    ∧ (∃ (s : State) (due : Nat), s.resetLine = false ∧ s.ret.confirm = some due ∧ s.ret.state ≠ .blocked)
    ∧ ∃ (s : State) (due : Nat), s.resetLine = false ∧ s.ret.recovery = some due ∧ s.ret.state = .blocked :=
  ⟨⟨{ State.reset with ret := { state := .normal, staleTimer := some 1 } }, 1, rfl, rfl, rfl⟩,
    ⟨{ State.reset with ret := { state := .congested, confirm := some 1 } }, 1, rfl, rfl, by decide⟩,
    ⟨{ State.reset with ret := { state := .blocked, recovery := some 1 } }, 1, rfl, rfl, rfl⟩⟩

theorem test_witness_WheelDemandIsStoredRenewedAndExpires :
    (∃ (s : State) (f : Frame) (es : List (Nat × Int)), Granted 0x20 .cab f s ∧ f.payload = groupPayload es
      ∧ EntriesOk 10 es ∧ (∀ e ∈ es, e.1 = 2 ∨ e.1 = 3 → e.2 = 0 ∨ e.2 = 1) ∧ 0 ≤ s.demand.tuning.dMax)
    ∧ (∃ (s : State) (f : Frame), Granted 0x21 .cab f s ∧ f.payload = [])
    ∧ ∃ (s : State) (due : Nat), s.resetLine = false ∧ s.demand.life = some due := by
  refine ⟨⟨asks .cab 0x20 (groupPayload [(1, 401), (3, 1), (4, -61), (10, 2147483647)]) State.reset, _, _,
      granted_asks _ _ _ rfl rfl, rfl, ?_, by decide, by decide⟩,
    ⟨asks .cab 0x21 [] State.reset, _, granted_asks _ _ _ rfl rfl, rfl⟩, ⟨feeding, 2000000, rfl, rfl⟩⟩
  unfold EntriesOk; decide

theorem test_witness_GroupWritesStoreNamedFields :
    (∃ (s : State) (f : Frame) (es : List (Nat × Int)), f.payload = groupPayload es ∧ Granted 0x22 .cab f s
      ∧ EntriesOk 5 es)
    ∧ (∃ (s : State) (f : Frame) (es : List (Nat × Int)), f.payload = groupPayload es ∧ Granted 0x23 .cab f s
      ∧ EntriesOk 28 es ∧ 0 ≤ s.demand.tuning.dMax)
    ∧ ∃ (s : State) (l : Link) (f : Frame) (es : List (Nat × Int)), f.payload = groupPayload es ∧ Granted 0x31 l f s
      ∧ barred s.demand.owner l .pumpOwner = none ∧ EntriesOk 14 es := by
  refine ⟨⟨asks .cab 0x22 (groupPayload [(5, -1)]) State.reset, _, _, rfl, granted_asks _ _ _ rfl rfl, ?_⟩,
    ⟨asks .cab 0x23 (groupPayload [(28, 5001), (5, 18)]) State.reset, _, _, rfl, granted_asks _ _ _ rfl rfl, ?_,
      by decide⟩,
    ⟨asks .plant 0x31 (groupPayload [(14, 500), (1, 15001)]) State.reset, .plant, _, _, rfl, granted_asks _ _ _ rfl rfl,
      rfl, ?_⟩⟩
  all_goals (unfold EntriesOk; decide)

theorem test_witness_BadGroupWritesAreRefused :
    (∃ (s : State) (f : Frame), requestRow .setFeed = some (0x22, .cabOnly) ∧ groupFields .setFeed = some 5
      ∧ Granted 0x22 .cab f s ∧ barred s.demand.owner .cab .cabOnly = none
      ∧ f.payload.length ≠ 1 + 5 * (f.payload.headD 0).toNat)
    ∧ (∃ (s : State) (f : Frame), Granted 0x22 .cab f s ∧ f.payload.length = 1 + 5 * (f.payload.headD 0).toNat
      ∧ (f.payload.headD 0).toNat = 0)
    ∧ (∃ (s : State) (f : Frame), Granted 0x22 .cab f s ∧ f.payload.length = 1 + 5 * (f.payload.headD 0).toNat
      ∧ ¬((List.range (f.payload.headD 0).toNat).map fun i => (f.payload.getD (1 + 5 * i) 0).toNat).Nodup)
    ∧ ∃ (s : State) (f : Frame) (es : List (Nat × Int)), Granted 0x20 .cab f s ∧ f.payload = groupPayload es
      ∧ EntriesOk 10 es ∧ ∃ e ∈ es, (e.1 = 2 ∨ e.1 = 3) ∧ e.2 ≠ 0 ∧ e.2 ≠ 1 := by
  refine ⟨⟨asks .cab 0x22 [1, 1, 0, 0, 0] State.reset, _, rfl, rfl, granted_asks _ _ _ rfl rfl, rfl, by decide⟩,
    ⟨asks .cab 0x22 [0] State.reset, _, granted_asks _ _ _ rfl rfl, rfl, rfl⟩,
    ⟨asks .cab 0x22 (groupPayload [(2, 1), (2, 3)]) State.reset, _, granted_asks _ _ _ rfl rfl, by decide, by decide⟩,
    ⟨asks .cab 0x20 (groupPayload [(3, -1)]) State.reset, _, [(3, -1)], granted_asks _ _ _ rfl rfl, rfl, ?_,
      (3, -1), by simp, by decide⟩⟩
  unfold EntriesOk; decide

theorem test_witness_PumpGroupChangesHands :
    (∃ (s : State) (l : Link) (f : Frame), Granted 0x27 l f s ∧ l ≠ .cab)
    ∧ (∃ (s : State) (f : Frame), Granted 0x27 .cab f s ∧ f.payload ≠ [])
    ∧ (∃ (s : State) (f : Frame), Granted 0x27 .cab f s ∧ f.payload = [] ∧ s.demand.owner = .cab)
    ∧ (∃ (s : State) (f : Frame), Granted 0x27 .cab f s ∧ f.payload = [] ∧ s.demand.owner = .plant
      ∧ s.demand.releasedPlant = true)
    ∧ (∃ (s : State) (f : Frame), Granted 0x27 .cab f s ∧ f.payload = [] ∧ s.demand.owner = .plant
      ∧ s.demand.releasedPlant = false ∧ s.links.plant.silent = false)
    ∧ (∃ (s : State) (l : Link) (f : Frame), Granted 0x30 l f s ∧ l ≠ .plant)
    ∧ (∃ (s : State) (f : Frame), Granted 0x30 .plant f s ∧ f.payload ≠ [])
    ∧ (∃ (s : State) (f : Frame), Granted 0x30 .plant f s ∧ f.payload = [] ∧ s.demand.owner = .plant)
    ∧ (∃ (s : State) (f : Frame), Granted 0x30 .plant f s ∧ f.payload = [] ∧ s.demand.owner = .cab
      ∧ s.links.cab.silent = true)
    ∧ (∃ (s : State) (f : Frame), Granted 0x30 .plant f s ∧ f.payload = [] ∧ s.demand.owner = .cab
      ∧ s.demand.releasedCab = false ∧ s.links.cab.silent = false)
    ∧ ∃ (s : State) (l : Link) (f : Frame), f.payload = [] ∧ Granted 0x33 l f s
      ∧ barred s.demand.owner l .pumpOwner = none :=
  ⟨⟨asks .record 0x27 [] State.reset, .record, _, granted_asks _ _ _ rfl rfl, by decide⟩,
    ⟨asks .cab 0x27 [0] State.reset, _, granted_asks _ _ _ rfl rfl, by decide⟩,
    ⟨asks .cab 0x27 [] { State.reset with demand := { owner := .cab } }, _, granted_asks _ _ _ rfl rfl, rfl, rfl⟩,
    ⟨asks .cab 0x27 [] resting, _, granted_asks _ _ _ rfl rfl, rfl, rfl, rfl⟩,
    ⟨asks .cab 0x27 [] State.reset, _, granted_asks _ _ _ rfl rfl, rfl, rfl, rfl, rfl⟩,
    ⟨asks .cab 0x30 [] State.reset, .cab, _, granted_asks _ _ _ rfl rfl, by decide⟩,
    ⟨asks .plant 0x30 [0] State.reset, _, granted_asks _ _ _ rfl rfl, by decide⟩,
    ⟨asks .plant 0x30 [] State.reset, _, granted_asks _ _ _ rfl rfl, rfl, rfl⟩,
    ⟨asks .plant 0x30 [] { run (.silenceExpiry .cab) State.reset with demand := { owner := .cab } }, _,
      ⟨rfl, rfl, rfl⟩, rfl, rfl, rfl⟩,
    ⟨asks .plant 0x30 [] { State.reset with demand := { owner := .cab } }, _, granted_asks _ _ _ rfl rfl, rfl, rfl, rfl,
      rfl⟩,
    ⟨asks .cab 0x33 [] { State.reset with demand := { owner := .cab } }, .cab, _, rfl, granted_asks _ _ _ rfl rfl, rfl⟩⟩

/-! ### Acquisition, alignment, plates -/

theorem test_witness_SetAcquisitionTakesListPeriodAndMode :
    (∃ (s : State) (f : Frame), Granted 0x24 .cab f s ∧ f.payload.length = 4)
    ∧ (∃ (s : State) (f : Frame) (k : Byte) (codes : List Byte) (p1 p2 m r : Byte), Granted 0x24 .cab f s
      ∧ f.payload = k :: codes ++ [p1, p2, m, r] ∧ codes.length = k.toNat ∧ ∃ c ∈ codes, 12 < c.toNat)
    ∧ ∃ (s : State) (f : Frame) (k : Byte) (codes : List Byte) (p1 p2 m r : Byte) (list : List Channel)
      (mode : AcqMode), Granted 0x24 .cab f s ∧ f.payload = k :: codes ++ [p1, p2, m, r] ∧ codes.length = k.toNat
      ∧ 1 ≤ k.toNat ∧ k.toNat ≤ 16 ∧ r.toNat ≤ 1 ∧ list.map Channel.code = codes.map BitVec.toNat
      ∧ mode.code = m.toNat ∧ (s.acq.state = .off → s.acq.scanTimer = none) :=
  ⟨⟨asks .cab 0x24 [0, 0, 0, 0] State.reset, _, granted_asks _ _ _ rfl rfl, rfl⟩,
    ⟨asks .cab 0x24 [1, 13, 0, 50, 0, 0] State.reset, _, 1, [13], 0, 50, 0, 0, granted_asks _ _ _ rfl rfl, rfl, rfl,
      13, by simp, by decide⟩,
    ⟨asks .cab 0x24 [2, 12, 0, 0, 9, 1, 1] State.reset, _, 2, [12, 0], 0, 9, 1, 1, [.sbr, .rf], .free,
      granted_asks _ _ _ rfl rfl, rfl, rfl, by decide, by decide, by decide, by decide, by decide, by decide⟩⟩

theorem test_witness_ScanTimerStartsAScan :
    (∃ (s : State) (due : Nat), s.resetLine = false ∧ s.acq.scanTimer = some due ∧ s.acq.state = .settling)
    ∧ (∃ (s : State) (due : Nat), s.resetLine = false ∧ s.acq.scanTimer = some due ∧ s.acq.state = .waiting
      ∧ s.acq.pendingMode = .free)
    ∧ ∃ (s : State) (due : Nat), s.resetLine = false ∧ s.acq.scanTimer = some due ∧ s.acq.state = .waiting
      ∧ s.acq.pendingMode = .off :=
  ⟨⟨State.reset, 50000, rfl, rfl, rfl⟩,
    ⟨{ State.reset with acq := { state := .waiting, pendingMode := .free, conversion := none } }, 50000, rfl, rfl, rfl, rfl⟩,
    ⟨{ State.reset with acq := { state := .waiting, pendingMode := .off, conversion := none } }, 50000, rfl, rfl, rfl, rfl⟩⟩

/-- A scan in flight of this list, with these conversions done. -/
def scanning (list : List Channel) (results : List Conversion) (st : AcqState) : State :=
  { State.reset with acq := { activeList := list, results := results, state := st, conversion := some 20000 } }

/-- A conversion of RF within the reference window. -/
def rf : Conversion := { channel := .rf, result := { value := 3000, saturated := false } }

theorem test_witness_ConversionsFillTheScan :
    (∃ (s : State) (due : Nat) (c : Channel), s.resetLine = false ∧ s.acq.conversion = some due
      ∧ s.acq.activeList[s.acq.results.length]? = some c ∧ s.acq.state = .scanning
      ∧ s.acq.results.length + 1 < s.acq.activeList.length ∧ c = .zr)
    ∧ ∃ (s : State) (due : Nat) (c : Channel), s.resetLine = false ∧ s.acq.conversion = some due
      ∧ s.acq.activeList[s.acq.results.length]? = some c
      ∧ s.acq.results.length + 1 = s.acq.activeList.length ∧ s.acq.state = .settling :=
  ⟨⟨scanning [.rf, .zr, .ix] [rf] .scanning, 20000, .zr, rfl, rfl, rfl, rfl, by decide, rfl⟩,
    ⟨scanning [.rf] [] .settling, 20000, .rf, rfl, rfl, rfl, rfl, rfl⟩⟩

theorem test_witness_LastConversionPublishesTheScan :
    ∃ (s : State) (due : Nat) (c : Channel), s.resetLine = false ∧ s.acq.conversion = some due
      ∧ s.acq.activeList[s.acq.results.length]? = some c ∧ s.acq.state = .scanning
      ∧ s.acq.results.length + 1 = s.acq.activeList.length ∧ LineLaw s :=
  ⟨scanning [.rf, .ix] [rf] .scanning, 20000, .ix, rfl, rfl, rfl, rfl, rfl, by unfold LineLaw; decide⟩

/-- Band 4 of drive A one below its notice. -/
def nearlyFull : State :=
  feeding.setWheel .a { feeding.drives.a with bands := [{}, {}, {}, { value := 12582911 }, {}, {}] }

theorem test_witness_ScanConsumersTakeTheScan :
    (∃ (s : State) (r : ScanRecord) (ix iy tw v ps pd : ScanValue) (k : Nat), r.valid = true ∧ entryOf r 2 = some ix
      ∧ entryOf r 3 = some iy ∧ entryOf r 4 = some tw ∧ entryOf r (pressureCode .a) = some v ∧ v.saturated = false
      ∧ CounterLaw s ∧ InBand ((v.value * 100).tdiv 4095) k ∧ entryOf r 7 = some ps ∧ ps.saturated = false
      ∧ entryOf r 8 = some pd ∧ pd.saturated = false ∧ Watched (s.wheel .a) ∧ s.ret.state = .normal)
    ∧ (∃ (s : State) (r : ScanRecord), r.valid = true ∧ entryOf r 2 = none
      ∧ (∀ v, entryOf r (pressureCode .b) = some v → v.saturated = true) ∧ Watched (s.wheel .b)
      ∧ (∀ ps, entryOf r 7 = some ps → ps.saturated = true))
    ∧ ∃ (s : State) (r : ScanRecord), r.valid = true ∧ TallyNoticed s r := by
  refine ⟨⟨feeding, scan [(.ix, 1), (.iy, -1), (.tw, 0), (.pa, 3300), (.ps, 79), (.pd, 1801)], ⟨1, false⟩, ⟨-1, false⟩,
      ⟨0, false⟩, ⟨3300, false⟩, ⟨79, false⟩, ⟨1801, false⟩, 3, rfl, rfl, rfl, rfl, rfl, rfl, feeding_outputs.2.2.1,
      by unfold InBand; decide, rfl, rfl, rfl, rfl, by unfold Watched; decide, rfl⟩,
    ⟨feeding, scan [(.pa, 3300)], rfl, rfl, fun v h => absurd (show none = some v from h) (by simp),
      by unfold Watched; decide, fun v h => absurd (show none = some v from h) (by simp)⟩,
    ⟨nearlyFull, scan [(.pa, 3300)], rfl, rfl, .a, ⟨3300, false⟩, 3, { value := 12582911 }, rfl, rfl, ?_, rfl, rfl⟩⟩
  unfold InBand; decide

/-- R121, R122: 3,300 counts are band 4; a tally that comes to 12,582,912 raises TALLY_NEAR_FULL. -/
theorem test_tally_notice :
    let t := driveScan (scan [(.pa, 3300)]) nearlyFull
    t.drives.a.bands[3]? = some { value := 12582912, near := true } ∧ FlagSet.has (t.link .cab).flags .tallyNearFull := by
  decide

/-- The reference of the worked cases: station 40, current. -/
theorem worked_reference : HasReference worked 20000 1310000 (-200000) :=
  .inr ⟨40, rfl, by decide, { rec 40 .settled 1310000 with offsetY := -200000 }, by simp [worked, withRecords], rfl, rfl,
    rfl, rfl⟩

theorem worked_table : TableLaw worked := by unfold TableLaw; decide

theorem worked_geometry : GeometryLaw worked := by unfold GeometryLaw; decide

theorem test_witness_AlignmentEvaluatesInOrder :
    (∃ s : State, GeometryLaw s ∧ TableLaw s ∧ DemandLaw s ∧ s.panel ≠ .active)
    ∧ (∃ s : State, GeometryLaw s ∧ TableLaw s ∧ DemandLaw s ∧ s.panel = .active ∧ s.align.steer = .manual)
    ∧ (∃ s : State, GeometryLaw s ∧ TableLaw s ∧ DemandLaw s ∧ s.panel = .active ∧ s.align.steer = .auto
      ∧ s.depth.ref ≠ .unreferenced ∧ ∀ depth x y, ¬HasReference s depth x y)
    ∧ ∃ (s : State) (r : ScanRecord) (depth x y : Int) (ix iy tw : ScanValue), GeometryLaw s ∧ TableLaw s
      ∧ DemandLaw s ∧ s.panel = .active ∧ s.align.steer = .auto ∧ s.depth.ref ≠ .unreferenced ∧ HasReference s depth x y
      ∧ entryOf r 2 = some ix ∧ entryOf r 3 = some iy ∧ entryOf r 4 = some tw ∧ ix.saturated = false
      ∧ iy.saturated = false ∧ tw.saturated = false := by
  refine ⟨⟨{ worked with panel := .closed }, worked_geometry, worked_table, worked_demand, by decide⟩,
    ⟨{ worked with align := { worked.align with steer := .manual } }, worked_geometry, worked_table, worked_demand, rfl, rfl⟩,
    ⟨{ worked with table := { worked.table with reference := some 41 } }, worked_geometry, worked_table, worked_demand, rfl,
      rfl, by decide, ?_⟩,
    ⟨worked, scan [(.ix, 14), (.iy, 30), (.tw, -35)], _, _, _, ⟨14, false⟩, ⟨30, false⟩, ⟨-35, false⟩,
      worked_geometry, worked_table,
      worked_demand, rfl, rfl, by decide, worked_reference, rfl, rfl, rfl, rfl, rfl, rfl⟩⟩
  rintro depth x y (⟨h, -⟩ | ⟨k, hk, -, r, hr, e, -⟩)
  · exact absurd h (by decide)
  · obtain rfl : 41 = k := by injection hk
    simp only [worked, withRecords, List.mem_cons, List.not_mem_nil, or_false] at hr
    subst hr
    exact absurd e (by decide)

theorem test_witness_PlatesAreJudgedAtScans :
    (∃ (s : State) (r : ScanRecord), DemandLaw s ∧ r.valid = false)
    ∧ ∃ (s : State) (r : ScanRecord) (v : ScanValue), DemandLaw s ∧ r.valid = true ∧ (s.plate .af).state ≠ .fault
      ∧ entryOf r (strokeCode .af) = some v ∧ v.saturated = false ∧ PlateOutputs (s.plate .af)
      ∧ 0 ≤ s.align.demands.of .af ∧ s.align.demands.of .af ≤ 100 :=
  ⟨⟨worked, { scan [] with valid := false }, worked_demand, rfl⟩,
    ⟨worked, scan [(.saf, 410)], ⟨410, false⟩, worked_demand, rfl, by decide, rfl, rfl, by unfold PlateOutputs; decide,
      by decide, by decide⟩⟩

theorem test_witness_PlatesFaultAndAreCleared :
    (∃ (s : State) (i : PlateId) (due : Nat), s.resetLine = false ∧ (s.plate i).travel = some due)
    ∧ (∃ (s : State) (f : Frame) (b : Byte), Granted 0x26 .cab f s ∧ f.payload = [b] ∧ b.toNat = 5)
    ∧ (∃ (s : State) (f : Frame) (b : Byte), Granted 0x26 .cab f s ∧ f.payload = [b] ∧ b.toNat = 3
      ∧ (s.plate .br).state ≠ .fault)
    ∧ ∃ (s : State) (f : Frame) (b : Byte), Granted 0x26 .cab f s ∧ f.payload = [b] ∧ b.toNat = 4
      ∧ (s.plate .br).state = .fault :=
  ⟨⟨State.reset.setPlate .ar { state := .extending, extend := true, travel := some 8000000 }, .ar, 8000000, rfl, rfl⟩,
    ⟨asks .cab 0x26 [5] State.reset, _, 5, granted_asks _ _ _ rfl rfl, rfl, rfl⟩,
    ⟨asks .cab 0x26 [3] State.reset, _, 3, granted_asks _ _ _ rfl rfl, rfl, rfl, by decide⟩,
    ⟨asks .cab 0x26 [4] (State.reset.setPlate .br { state := .fault }), _, 4, granted_asks _ _ _ rfl rfl, rfl, rfl, rfl⟩⟩

/-! ### Drives -/

theorem test_witness_PickupsAndLoadedTimeCount :
    (∃ (s : State) (d : DriveId) (elapsed e : Nat), s.resetLine = false ∧ CounterLaw s ∧ (s.motor d).lastEdge = some e
      ∧ min (s.clock + elapsed - e) 16777215 = 199)
    ∧ (∃ (s : State) (d : DriveId) (elapsed e : Nat), s.resetLine = false ∧ CounterLaw s ∧ (s.motor d).lastEdge = some e
      ∧ min (s.clock + elapsed - e) 16777215 = 200)
    ∧ (∃ (s : State) (d : DriveId) (due : Nat), s.resetLine = false ∧ (s.motor d).pickupTimer = some due)
    ∧ ∃ (s : State) (due : Nat), s.resetLine = false ∧ CounterLaw s ∧ s.drives.loadedTimer = some due := by
  refine ⟨⟨State.reset.setMotor .a { lastEdge := some 0 }, .a, 199, 0, rfl, ?_, rfl, by decide⟩,
    ⟨State.reset.setMotor .a { lastEdge := some 0 }, .a, 200, 0, rfl, ?_, rfl, by decide⟩,
    ⟨State.reset.setMotor .p { pickupTimer := some 9 }, .p, 9, rfl, rfl⟩,
    ⟨feeding, 100000, rfl, feeding_outputs.2.2.1, rfl⟩⟩
  all_goals (unfold CounterLaw; decide)

theorem test_witness_TalliesAreReadAndCleared :
    (∃ (s : State) (l : Link) (f : Frame), Granted 0x45 l f s ∧ f.payload ≠ [])
    ∧ (∃ (s : State) (l : Link) (f : Frame), Granted 0x45 l f s ∧ f.payload = [])
    ∧ (∃ (s : State) (l : Link) (f : Frame), Granted 0x54 l f s ∧ l ≠ .record)
    ∧ (∃ (s : State) (f : Frame), Granted 0x54 .record f s ∧ f.payload ≠ [])
    ∧ (∃ (s : State) (f : Frame), Granted 0x54 .record f s ∧ f.payload = [] ∧ s.panel = .closing)
    ∧ ∃ (s : State) (f : Frame), Granted 0x54 .record f s ∧ f.payload = [] ∧ s.panel ≠ .closing :=
  ⟨⟨asks .plant 0x45 [0] feeding, .plant, _, granted_asks _ _ _ rfl rfl, by decide⟩,
    ⟨asks .record 0x45 [] feeding, .record, _, granted_asks _ _ _ rfl rfl, rfl⟩,
    ⟨asks .cab 0x54 [] feeding, .cab, _, granted_asks _ _ _ rfl rfl, by decide⟩,
    ⟨asks .record 0x54 [0] closing, _, granted_asks _ _ _ rfl rfl, by decide⟩,
    ⟨asks .record 0x54 [] closing, _, granted_asks _ _ _ rfl rfl, rfl, rfl⟩,
    ⟨asks .record 0x54 [] feeding, _, granted_asks _ _ _ rfl rfl, rfl, by decide⟩⟩

theorem test_witness_WheelLoopPassGoesThroughItsStages :
    (∃ (s : State) (w : WheelId) (due : Nat), s.resetLine = false ∧ (s.wheel w).motor.loopTimer = some due
      ∧ |s.align.diff| ≤ 200 ∧ (s.wheel w).state = .running)
    ∧ (∃ (s : State) (w : WheelId) (due : Nat), s.resetLine = false ∧ (s.wheel w).motor.loopTimer = some due
      ∧ |s.align.diff| ≤ 200 ∧ (s.wheel w).state = .stallReverse)
    ∧ ∃ (s : State) (w : WheelId) (due : Nat), s.resetLine = false ∧ (s.wheel w).motor.loopTimer = some due
      ∧ |s.align.diff| ≤ 200 ∧ (s.wheel w).state = .lockedOut :=
  ⟨⟨feeding, .a, 20000, rfl, rfl, by decide, rfl⟩, ⟨flipping, .a, 20000, rfl, rfl, by decide, by decide⟩,
    ⟨State.reset.setWheel .b { state := .lockedOut }, .b, 20000, rfl, rfl, by decide, rfl⟩⟩

theorem test_witness_PumpPassAndPwmPeriod :
    (∃ (s : State) (due : Nat), s.resetLine = false ∧ s.drives.p.motor.loopTimer = some due)
    ∧ ∃ (s : State) (due : Nat), s.resetLine = false ∧ s.drives.pwmTimer = some due :=
  ⟨⟨feeding, 20000, rfl, rfl⟩, ⟨feeding, 4000, rfl, rfl⟩⟩

theorem test_witness_StallsReverseResumeAndLockOut :
    (∃ (s : State) (w : WheelId) (due : Nat), s.resetLine = false ∧ (s.wheel w).confirm = some due
      ∧ ((s.wheel w).stalls.filter fun e => decide ((((max s.clock due) / 1000 - e : Nat) : Int)
          ≤ s.demand.tuning.lockoutWindow * 1000)).length = 1)
    ∧ (∃ (s : State) (w : WheelId) (due : Nat), s.resetLine = false ∧ (s.wheel w).confirm = some due
      ∧ ((s.wheel w).stalls.filter fun e => decide ((((max s.clock due) / 1000 - e : Nat) : Int)
          ≤ s.demand.tuning.lockoutWindow * 1000)).length = 2)
    ∧ (∃ (s : State) (w : WheelId) (due : Nat), s.resetLine = false ∧ (s.wheel w).reverseTimer = some due)
    ∧ (∃ (s : State) (f : Frame) (b : Byte), Granted 0x25 .cab f s ∧ f.payload = [b] ∧ b.toNat = 2)
    ∧ (∃ (s : State) (f : Frame) (b : Byte), Granted 0x25 .cab f s ∧ f.payload = [b] ∧ b.toNat = 0
      ∧ (s.wheel .a).state ≠ .lockedOut)
    ∧ ∃ (s : State) (f : Frame) (b : Byte), Granted 0x25 .cab f s ∧ f.payload = [b] ∧ b.toNat = 1
      ∧ (s.wheel .b).state = .lockedOut :=
  ⟨⟨stalling, .a, 30800000, rfl, rfl, by decide⟩,
    ⟨stalling.setWheel .a { stalling.wheel .a with stalls := [0, 800] }, .a, 30800000, rfl, rfl, by decide⟩,
    ⟨State.reset.setWheel .b { state := .stallReverse, reverseTimer := some 5 }, .b, 5, rfl, rfl⟩,
    ⟨asks .cab 0x25 [2] State.reset, _, 2, granted_asks _ _ _ rfl rfl, rfl, rfl⟩,
    ⟨asks .cab 0x25 [0] State.reset, _, 0, granted_asks _ _ _ rfl rfl, rfl, rfl, by decide⟩,
    ⟨asks .cab 0x25 [1] (State.reset.setWheel .b { state := .lockedOut }), _, 1, granted_asks _ _ _ rfl rfl, rfl, rfl,
      rfl⟩⟩

/-! ### Readouts, stations, archive -/

theorem test_witness_ReadStatusReportsEverySection :
    ∃ (s : State) (l : Link) (f : Frame), TableLaw s ∧ Granted 0x40 l f s ∧ f.payload = [] :=
  ⟨asks .record 0x40 [] feeding, .record, _, worked_table, granted_asks _ _ _ rfl rfl, rfl⟩

theorem test_witness_ReadoutsReportTheirFields :
    (∃ (s : State) (l : Link) (f : Frame), f.payload = [] ∧ Granted 0x41 l f s ∧ s.acq.latest = none)
    ∧ (∃ (s : State) (l : Link) (f : Frame) (r : ScanRecord), f.payload = [] ∧ Granted 0x41 l f s
      ∧ s.acq.latest = some r)
    ∧ (∃ (s : State) (l : Link) (f : Frame), f.payload = [] ∧ Granted 0x44 l f s)
    ∧ (∃ (s : State) (l : Link) (f : Frame), f.payload = [] ∧ Granted 0x46 l f s)
    ∧ ∃ (s : State) (f : Frame), f.payload = [] ∧ Granted 0x51 .record f s :=
  ⟨⟨asks .cab 0x41 [] feeding, .cab, _, rfl, granted_asks _ _ _ rfl rfl, rfl⟩,
    ⟨asks .cab 0x41 [] { feeding with acq := { latest := some (scan [(.ix, 14)]) } }, .cab, _, _, rfl,
      granted_asks _ _ _ rfl rfl, rfl⟩,
    ⟨asks .plant 0x44 [] feeding, .plant, _, rfl, granted_asks _ _ _ rfl rfl⟩,
    ⟨asks .cab 0x46 [] feeding, .cab, _, rfl, granted_asks _ _ _ rfl rfl⟩,
    ⟨asks .record 0x51 [] held, _, rfl, granted_asks _ _ _ rfl rfl⟩⟩

theorem test_witness_ReadStationsAnswersOrHolds :
    (∃ (s : State) (l : Link) (f : Frame) (a b c : Byte), Granted 0x42 l f s ∧ f.payload = [a, b, c] ∧ c.toNat = 17)
    ∧ (∃ (s : State) (l : Link) (f : Frame) (a b c : Byte), Granted 0x42 l f s ∧ f.payload = [a, b, c] ∧ 1 ≤ c.toNat
      ∧ c.toNat ≤ 16 ∧ s.table.hold l = .free ∧ s.panel ≠ .idle
      ∧ a.toNat * 256 + b.toNat + c.toNat = s.geometry.stations)
    ∧ (∃ (s : State) (l : Link) (f : Frame) (q : Query) (buffer : List (List Byte)), Granted 0x42 l f s
      ∧ f.payload = [0, 0, 1] ∧ s.table.hold l = .prepared q buffer ∧ q = { first := 0, count := 1, range := 1 })
    ∧ (∃ (s : State) (l : Link) (f : Frame) (q : Query), Granted 0x42 l f s ∧ f.payload = [0, 0, 1]
      ∧ s.table.hold l = .waiting q ∧ (q.first ≠ 0 ∨ q.count ≠ 1))
    ∧ ∃ (s : State) (l : Link) (f : Frame), Granted 0x42 l f s ∧ f.payload = [0, 0, 1] ∧ s.table.hold l = .cancelled 0 1 :=
  ⟨⟨asks .cab 0x42 [0, 0, 17] walking, .cab, _, 0, 0, 17, granted_asks _ _ _ rfl rfl, rfl, rfl⟩,
    ⟨asks .plant 0x42 [0, 225, 16] walking, .plant, _, 0, 225, 16, granted_asks _ _ _ rfl rfl, rfl, by decide, by decide, rfl,
      by decide, by decide⟩,
    ⟨asks .cab 0x42 [0, 0, 1] walking, .cab, _, _, _, granted_asks _ _ _ rfl rfl, rfl, rfl, rfl⟩,
    ⟨asks .plant 0x42 [0, 0, 1] { walking with table := { walking.table with holdPlant := .waiting { first := 0, count := 2, range := 2 } } },
      .plant, _, _, granted_asks _ _ _ rfl rfl, rfl, rfl, by decide⟩,
    ⟨asks .record 0x42 [0, 0, 1] { walking with table := { walking.table with holdRecord := .cancelled 0 1 } }, .record, _,
      granted_asks _ _ _ rfl rfl, rfl, rfl⟩⟩

theorem test_witness_StationEntryCarriesTheRecord :
    ∃ (rs : List Station) (r : Station) (x y : Int), rs.Pairwise (fun r q => r.index < q.index) ∧ r ∈ rs
      ∧ RoundsTo r.offsetX 100000 x ∧ RoundsTo r.offsetY 100000 y :=
  ⟨[rec 0 .settled 0, rec 1 .settled (-150000)], rec 1 .settled (-150000), -2, 0, by decide, by simp,
    by unfold RoundsTo; decide, by unfold RoundsTo; decide⟩

theorem test_witness_CancelHoldFreesTheHold :
    (∃ (s : State) (l : Link) (f : Frame), Granted 0x43 l f s ∧ f.payload ≠ [])
    ∧ (∃ (s : State) (l : Link) (f : Frame), Granted 0x43 l f s ∧ f.payload = [] ∧ s.table.hold l = .free)
    ∧ ∃ (s : State) (l : Link) (f : Frame), Granted 0x43 l f s ∧ f.payload = [] ∧ s.table.hold l ≠ .free :=
  ⟨⟨asks .cab 0x43 [0] walking, .cab, _, granted_asks _ _ _ rfl rfl, by decide⟩,
    ⟨asks .plant 0x43 [] walking, .plant, _, granted_asks _ _ _ rfl rfl, rfl, rfl⟩,
    ⟨asks .cab 0x43 [] walking, .cab, _, granted_asks _ _ _ rfl rfl, rfl, fun h => absurd h (by decide)⟩⟩

/-- The walk stage of a close, at its last record. -/
def lastWalk : State :=
  let s := withRecords [rec 0 .settled 0, { rec 1 .opened 0 with stale := true }] (atCount 20000 41)
  let s := (s.setSlot 0 { state := .writing, panelId := some 0, pageCount := some 17 }).setEngine (.reserved 0)
  { s with panel := .closing, table := { s.table with walker := some { cursor := 1, due := 50 } } }

theorem lastWalk_walker : WalkerLaw lastWalk := by
  refine ⟨⟨⟨{ rec 1 .opened 0 with stale := true }, by simp [lastWalk, withRecords, State.setEngine, State.setSlot], rfl⟩,
    by decide⟩, ?_⟩
  intro r hr hs
  have : r = rec 0 .settled 0 := by
    simp only [lastWalk, withRecords, State.setEngine, State.setSlot, List.mem_cons, List.not_mem_nil, or_false] at hr
    rcases hr with rfl | rfl
    · rfl
    · exact absurd hs (by decide)
  subst this
  exact ⟨fun _ => ⟨rfl, rfl⟩, fun p hp => absurd hp.2.1 (Nat.not_lt_zero _), fun h => absurd rfl h⟩

theorem test_witness_RestitchStepRecomputesTheRecord :
    (∃ (s : State) (w : Walker) (r : Station), s.resetLine = false ∧ s.table.walker = some w ∧ TableLaw s
      ∧ r ∈ s.table.records ∧ r.index = w.cursor ∧ s.panel = .active)
    ∧ ∃ (s : State) (w : Walker) (r : Station) (i : Nat), s.resetLine = false ∧ s.table.walker = some w ∧ TableLaw s
      ∧ r ∈ s.table.records ∧ r.index = w.cursor ∧ (∀ q ∈ s.table.records, q.index ≤ w.cursor) ∧ WalkerLaw s
      ∧ s.panel = .closing ∧ s.archive.engine = .reserved i := by
  refine ⟨⟨walking, { cursor := 1, due := 50 }, { rec 1 .opened 0 with stale := true }, rfl, rfl, walking_table.2.1,
      by simp [walking, withRecords], rfl, rfl⟩,
    ⟨lastWalk, { cursor := 1, due := 50 }, { rec 1 .opened 0 with stale := true }, 0, rfl, rfl, ?_,
      by simp [lastWalk, withRecords, State.setEngine, State.setSlot], rfl, by decide, lastWalk_walker, rfl, rfl⟩⟩
  unfold TableLaw; decide

theorem test_witness_FlagsClearMaskAndRestart :
    (∃ (s : State) (l : Link) (f : Frame) (a b c : Byte), f.payload = [a, b, c] ∧ Granted 0x47 l f s)
    ∧ (∃ (s : State) (l : Link) (f : Frame) (a b c : Byte), f.payload = [a, b, c] ∧ Granted 0x48 l f s)
    ∧ ∃ (s : State) (f : Frame), Granted 0x2F .cab f s ∧ f.payload = [] :=
  ⟨⟨asks .plant 0x47 [1, 0, 8] feeding, .plant, _, 1, 0, 8, rfl, granted_asks _ _ _ rfl rfl⟩,
    ⟨asks .record 0x48 [0xFF, 0xFF, 0xFF] feeding, .record, _, 0xFF, 0xFF, 0xFF, rfl, granted_asks _ _ _ rfl rfl⟩,
    ⟨asks .cab 0x2F [] feeding, _, granted_asks _ _ _ rfl rfl, rfl⟩⟩

theorem test_witness_ReadArchiveReturnsAndMarksPages :
    (∃ (s : State) (f : Frame) (a b c : Byte), Granted 0x50 .record f s ∧ f.payload = [a, b, c]
      ∧ s.archive.engine ≠ .idle)
    ∧ (∃ (s : State) (f : Frame) (a b c : Byte), Granted 0x50 .record f s ∧ f.payload = [a, b, c]
      ∧ s.archive.engine = .idle ∧ (a.toNat = 8 ∨ c.toNat = 0 ∨ c.toNat = 5))
    ∧ (∃ (s : State) (f : Frame) (a b c : Byte), Granted 0x50 .record f s ∧ f.payload = [a, b, c]
      ∧ s.archive.engine = .idle ∧ a.toNat = 7 ∧ c.toNat = 4 ∧ (s.slot a.toNat).state = .empty)
    ∧ (∃ (s : State) (f : Frame) (a b c : Byte), Granted 0x50 .record f s ∧ f.payload = [a, b, c]
      ∧ s.archive.engine = .idle ∧ a.toNat = 2 ∧ c.toNat = 1 ∧ (s.slot a.toNat).state = .held
      ∧ (s.slot a.toNat).pageCount.getD 0 = b.toNat)
    ∧ ∃ (s : State) (f : Frame) (a b c : Byte), Granted 0x50 .record f s ∧ f.payload = [a, b, c]
      ∧ s.archive.engine = .idle ∧ a.toNat = 2 ∧ c.toNat = 4 ∧ (s.slot a.toNat).state = .held
      ∧ b.toNat + 1 = (s.slot a.toNat).pageCount.getD 0 ∧ s.archive.slots.length = 8
      ∧ (s.slot a.toNat).pageCount.getD 0 ≤ 65 :=
  ⟨⟨asks .record 0x50 [0, 0, 1] closing, _, 0, 0, 1, granted_asks _ _ _ rfl rfl, rfl, by decide⟩,
    ⟨asks .record 0x50 [8, 0, 1] held, _, 8, 0, 1, granted_asks _ _ _ rfl rfl, rfl, rfl, by decide⟩,
    ⟨asks .record 0x50 [7, 0, 4] held, _, 7, 0, 4, granted_asks _ _ _ rfl rfl, rfl, rfl, rfl, rfl, rfl⟩,
    ⟨asks .record 0x50 [2, 17, 1] held, _, 2, 17, 1, granted_asks _ _ _ rfl rfl, rfl, rfl, rfl, rfl, rfl, rfl⟩,
    ⟨asks .record 0x50 [2, 16, 4] held, _, 2, 16, 4, granted_asks _ _ _ rfl rfl, rfl, rfl, rfl, rfl, rfl, rfl, rfl,
      by decide⟩⟩

theorem test_witness_EraseAndWipeEmptySlots :
    (∃ (s : State) (f : Frame) (b : Byte), Granted 0x52 .record f s ∧ f.payload = [b] ∧ s.archive.engine = .idle
      ∧ b.toNat = 8)
    ∧ (∃ (s : State) (f : Frame) (b : Byte), Granted 0x52 .record f s ∧ f.payload = [b] ∧ s.archive.engine = .idle
      ∧ b.toNat = 7 ∧ (s.slot 7).state = .faulty)
    ∧ (∃ (s : State) (f : Frame), Granted 0x53 .record f s ∧ f.payload = [] ∧ s.archive.engine = .idle
      ∧ ((List.range s.archive.slots.length).filter fun i => decide ((s.slot i).state ≠ .empty)) = [])
    ∧ (∃ (s : State) (f : Frame), Granted 0x53 .record f s ∧ f.payload = [] ∧ s.archive.engine = .idle
      ∧ ((List.range s.archive.slots.length).filter fun i => decide ((s.slot i).state ≠ .empty)) = [2])
    ∧ (∃ s : State, s.resetLine = false ∧ s.archive.engine = .wipe 2 [] 400000)
    ∧ ∃ s : State, s.resetLine = false ∧ s.archive.engine = .wipe 2 [3] 400000 :=
  ⟨⟨asks .record 0x52 [8] held, _, 8, granted_asks _ _ _ rfl rfl, rfl, rfl, rfl⟩,
    ⟨asks .record 0x52 [7] (State.reset.setSlot 7 { state := .faulty }), _, 7, granted_asks _ _ _ rfl rfl, rfl, rfl, rfl,
      rfl⟩,
    ⟨asks .record 0x53 [] State.reset, _, granted_asks _ _ _ rfl rfl, rfl, rfl, by decide⟩,
    ⟨asks .record 0x53 [] held, _, granted_asks _ _ _ rfl rfl, rfl, rfl, by decide⟩,
    ⟨held.setEngine (.wipe 2 [] 400000), rfl, rfl⟩, ⟨held.setEngine (.wipe 2 [3] 400000), rfl, rfl⟩⟩

theorem test_witness_PageProgramsFillTheSlot :
    (∃ (s : State) (i page : Nat) (image : List (List Byte)) (due : Nat), s.resetLine = false
      ∧ s.archive.engine = .programming i page image due ∧ page + 1 < image.length)
    ∧ ∃ (s : State) (i page : Nat) (image : List (List Byte)) (due : Nat), s.resetLine = false
      ∧ s.archive.engine = .programming i page image due ∧ image.length ≤ page + 1 :=
  ⟨⟨closing.setEngine (.programming 0 0 [[1], [2]] 5000), 0, 0, _, 5000, rfl, rfl, by decide⟩,
    ⟨closing, 0, 1, _, 5000, rfl, rfl, by decide⟩⟩

end Sys2Proof.Tests
end

section
/-! Proofs about the held queries of 04_station_table.md: CANCEL HOLD (R78). The request engine's part is said once, for
every request whose block raises no flag; what is left of CANCEL HOLD is its block's rule in its two cases. -/

namespace Sys2Proof.Machine

open Sys2Proof.Safety

/-! ## Requests whose block raises no flag -/

/-- The grant touches the links only. -/
theorem takeHead_eq (l : Link) (s : State) : takeHead l s = { s with links := (takeHead l s).links } := by
  cases l <;> rfl

/-- An allowed request whose block leaves the links alone is served with the block's state and answer. -/
theorem serves_of_body {c : Instr} {kind : Byte} {acc : Access} {body : Link → List Byte → State → State × Answer}
    {s u : State} {l : Link} {f : Frame} {a : Answer} (hc : exec c s = .next (request kind acc body s))
    (h : Granted kind l f s) (hb : barred s.demand.owner l acc = none)
    (hx : body l f.payload (takeHead l s) = ({ u with links := (takeHead l s).links }, a)) :
    Serves c l f a [] s u :=
  ⟨_, hc, serve_spec h hb (by rw [hx]) (by rw [hx]) (by rw [hx]; exact linksKept_refl rfl) _ rfl⟩

theorem emptyPayload_nil (body : Link → State → State × Answer) (l : Link) (s : State) :
    emptyPayload body l [] s = body l s := rfl

theorem emptyPayload_of_ne {p : List Byte} (hp : p ≠ []) (body : Link → State → State × Answer) (l : Link)
    (s : State) : emptyPayload body l p s = (s, refusal .badLength) := by
  simp [emptyPayload, hp]

/-- An allowed request that takes no payload is refused BAD_LENGTH when it has one (R167). -/
theorem refuses_of_payload {c : Instr} {kind : Byte} {acc : Access} {body : Link → State → State × Answer}
    {s : State} {l : Link} {f : Frame} (hc : exec c s = .next (request kind acc (emptyPayload body) s))
    (h : Granted kind l f s) (hb : barred s.demand.owner l acc = none) (hp : f.payload ≠ []) :
    Refuses c l f .badLength [] s := by
  refine serves_of_body hc h hb ?_
  rw [emptyPayload_of_ne hp, ← takeHead_eq]
  rfl

/-- An allowed request that takes no payload, and has none, is served by its block's rule. -/
theorem serves_of_emptyPayload {c : Instr} {kind : Byte} {acc : Access} {body : Link → State → State × Answer}
    {s u : State} {l : Link} {f : Frame} {a : Answer}
    (hc : exec c s = .next (request kind acc (emptyPayload body) s)) (h : Granted kind l f s)
    (hb : barred s.demand.owner l acc = none) (hp : f.payload = [])
    (hx : body l (takeHead l s) = ({ u with links := (takeHead l s).links }, a)) : Serves c l f a [] s u :=
  serves_of_body hc h hb (by rw [hp, emptyPayload_nil, hx])

/-! ## CANCEL HOLD (R78) -/

theorem exec_cancelHold (s : State) :
    exec .cancelHold s = .next (request 0x43 .anyLink (emptyPayload cancelHoldBody) s) := rfl

theorem cancelHoldBody_of_free {l : Link} {s : State} (h : s.table.hold l = .free) :
    cancelHoldBody l s = (s, { outcome := .noData }) := if_pos h

theorem cancelHoldBody_of_held {l : Link} {s : State} (h : s.table.hold l ≠ .free) :
    cancelHoldBody l s = ({ s with table := s.table.setHold l .free }, { outcome := .done }) := if_neg h

theorem cancelHold_free_serves {s : State} {l : Link} {f : Frame} (h : Granted 0x43 l f s) (hp : f.payload = [])
    (hf : s.table.hold l = .free) : Serves .cancelHold l f { outcome := .noData } [] s s := by
  refine serves_of_emptyPayload (exec_cancelHold s) h rfl hp ?_
  rw [cancelHoldBody_of_free (by rwa [takeHead_table]), ← takeHead_eq]

theorem cancelHold_held_serves {s : State} {l : Link} {f : Frame} (h : Granted 0x43 l f s) (hp : f.payload = [])
    (hf : s.table.hold l ≠ .free) :
    Serves .cancelHold l f { outcome := .done } [] s { s with table := s.table.setHold l .free } := by
  refine serves_of_emptyPayload (exec_cancelHold s) h rfl hp ?_
  rw [cancelHoldBody_of_held (by rwa [takeHead_table]), takeHead_table, takeHead_eq]

/-- Settles O55: R78 by its three cases, a payload, a FREE hold and any other hold. The record update that the
statement writes out for each link is `StationTable.setHold`. -/
theorem cancelHoldFreesTheHold : Obligations.CancelHoldFreesTheHold := by
  intro s l f h
  refine ⟨refuses_of_payload (exec_cancelHold s) h rfl, cancelHold_free_serves h, fun hp hf => ?_⟩
  have served := cancelHold_held_serves h hp hf
  cases l <;> exact served

end Sys2Proof.Machine
end

section
/-! Proofs about the tallies of 06_drive_channels.md: READ TALLIES and CLEAR TALLIES (R123). -/

namespace Sys2Proof.Machine

open Sys2Proof.Safety

/-! ## Requests of a link that may not send them -/

/-- A request that the request table does not let its link send is refused with the table's reason (R167). -/
theorem refuses_of_barred {c : Instr} {kind : Byte} {acc : Access} {body : Link → List Byte → State → State × Answer}
    {s : State} {l : Link} {f : Frame} {r : Reason} (hc : exec c s = .next (request kind acc body s))
    (h : Granted kind l f s) (hb : barred s.demand.owner l acc = some r) : Refuses c l f r [] s :=
  ⟨_, hc, serve_barred h hb _ rfl⟩

/-! ## READ TALLIES (R123) -/

theorem exec_readTallies (s : State) :
    exec .readTallies s = .next (request 0x45 .anyLink (emptyPayload readTalliesBody) s) := rfl

/-- The tallies readout: the counters with their near-full marks, and the panel identifier (12.5). -/
theorem readTalliesBody_eq (l : Link) (s : State) :
    readTalliesBody l s
      = (s, { outcome := .done, payload := laid (countersLayout s ++ [(4, s.geometry.panelId)]) }) := by
  simp [readTalliesBody, doneWith, counterField_eq, laid]

/-- The readout does not depend on the links, so taking the request leaves it as it was. -/
theorem readTallies_serves {s : State} {l : Link} {f : Frame} (h : Granted 0x45 l f s) (hp : f.payload = []) :
    Serves .readTallies l f
      { outcome := .done, payload := laid (countersLayout s ++ [(4, s.geometry.panelId)]) } [] s s := by
  refine serves_of_emptyPayload (exec_readTallies s) h rfl hp ?_
  have counters_kept : countersLayout (takeHead l s) = countersLayout s := by simp [countersLayout]
  rw [readTalliesBody_eq, counters_kept, takeHead_geometry, ← takeHead_eq]

/-! ## CLEAR TALLIES (R123) -/

theorem exec_clearTallies (s : State) :
    exec .clearTallies s = .next (request 0x54 .recordOnly (emptyPayload clearTalliesBody) s) := rfl

theorem clearTalliesBody_of_closing {l : Link} {s : State} (h : s.panel = .closing) :
    clearTalliesBody l s = (s, refusal .busy) := if_pos h

theorem clearTalliesBody_of_not_closing {l : Link} {s : State} (h : s.panel ≠ .closing) :
    clearTalliesBody l s = ({ s with drives := TalliesZeroed s.drives }, { outcome := .done }) := by
  rw [← zeroTallies_eq]
  exact if_neg h

theorem clearTallies_closing_refuses {s : State} {f : Frame} (h : Granted 0x54 .record f s) (hp : f.payload = [])
    (hc : s.panel = .closing) : Refuses .clearTallies .record f .busy [] s := by
  refine serves_of_emptyPayload (exec_clearTallies s) h rfl hp ?_
  rw [clearTalliesBody_of_closing (by rwa [takeHead_panel]), ← takeHead_eq]
  rfl

theorem clearTallies_serves {s : State} {f : Frame} (h : Granted 0x54 .record f s) (hp : f.payload = [])
    (hc : s.panel ≠ .closing) :
    Serves .clearTallies .record f { outcome := .done } [] s { s with drives := TalliesZeroed s.drives } := by
  refine serves_of_emptyPayload (exec_clearTallies s) h rfl hp ?_
  rw [clearTalliesBody_of_not_closing (by rwa [takeHead_panel]), takeHead_drives, takeHead_eq]

/-- Settles O47: READ TALLIES by its payload; CLEAR TALLIES in the order of its checks, the link, the payload and the
panel's state (R123). -/
theorem talliesAreReadAndCleared : Obligations.TalliesAreReadAndCleared := by
  refine fun s l f => ⟨fun h => ?read, fun h => ⟨fun hl => ?wrongLink, ?_, ?_, ?_⟩⟩
  case read => exact ⟨refuses_of_payload (exec_readTallies s) h rfl, readTallies_serves h⟩
  case wrongLink => exact refuses_of_barred (exec_clearTallies s) h (if_neg hl)
  all_goals rintro rfl
  · exact refuses_of_payload (exec_clearTallies s) h rfl
  · exact clearTallies_closing_refuses h
  · exact clearTallies_serves h

end Sys2Proof.Machine
end

section
/-! What a command can do, said once. A command is a reset, a request row with its block's rule (`rowRule`), or an event
that comes at a time (`eventTime`) with a rule of its own (`eventRule`). The statements about every command and every
step start from `exec_cases` and `step_cases`. -/

namespace Sys2Proof.Machine

open Sys2Proof.Safety

/-! ## The rules of the request rows and of the events -/

/-- The rule by which the owning block answers a request row (10.3), its length check included. -/
def rowRule : Instr → Link → List Byte → State → State × Answer
  | .openPanel => payloadOf geometryBytes openPanelBody
  | .closePanel => emptyPayload closePanelBody
  | .abandonPanel => emptyPayload abandonPanelBody
  | .extendDepth => payloadOf 4 extendDepthBody
  | .setDepth => payloadOf 4 setDepthBody
  | .setWheel => fun _ p s => writeGroup 10 wheelEntryOk (wheelRange s.demand.tuning.dMax) acceptWheel p s
  | .keepWheel => emptyPayload keepWheelBody
  | .setFeed => fun _ p s => writeGroup 5 (fun _ => true) feedRange acceptFeed p s
  | .setTuning => fun _ p s => writeGroup 28 (fun _ => true) tuningRange acceptTuning p s
  | .setAcquisition => setAcquisitionBody
  | .restartDrive => payloadOf 1 restartDriveBody
  | .clearPlateFault => payloadOf 1 clearPlateFaultBody
  | .takePump => emptyPayload takePumpBody
  | .reclaimPump => emptyPayload reclaimPumpBody
  | .restart => emptyPayload restartBody
  | .setPump => fun _ p s => writeGroup 14 (fun _ => true) pumpRange acceptPump p s
  | .reportReturn => payloadOf 6 reportReturnBody
  | .releasePump => emptyPayload releasePumpBody
  | .readStatus => emptyPayload readStatusBody
  | .readSnapshot => emptyPayload readSnapshotBody
  | .readStations => payloadOf 3 readStationsBody
  | .cancelHold => emptyPayload cancelHoldBody
  | .readDemands => emptyPayload readDemandsBody
  | .readTallies => emptyPayload readTalliesBody
  | .readFlags => emptyPayload readFlagsBody
  | .clearFlags => payloadOf 3 clearFlagsBody
  | .setMask => payloadOf 3 setMaskBody
  | .readArchive => payloadOf 3 readArchiveBody
  | .archiveStatus => emptyPayload archiveStatusBody
  | .eraseSlot => payloadOf 1 eraseSlotBody
  | .wipeArchive => emptyPayload wipeArchiveBody
  | .clearTallies => emptyPayload clearTalliesBody
  | _ => fun _ _ s => (s, doneWith [])

/-- The meaning of a request row is its block's rule under the request engine. -/
theorem exec_row {c : Instr} {kind : Byte} {acc : Access} (h : requestRow c = some (kind, acc)) (s : State) :
    exec c s = .next (request kind acc (rowRule c) s) := by
  cases c <;> cases h <;> rfl

/-- The time at which an event can be taken: none while it cannot come. -/
def eventTime (s : State) : Instr → Timer
  | .warm => if s.warmDue then some s.clock else none
  | .frameReceived _ _ | .replySent _ | .unknownRequest | .encoderTransition _ _ => some s.clock
  | .bytePauseTimeout l => (s.link l).bytePause
  | .silenceExpiry l => (s.link l).silence
  | .pageProgramCompletion _ => s.archive.engine.programmingDue
  | .eraseCompletion _ => s.archive.engine.erasing
  | .scanTimerExpiry => s.acq.scanTimer
  | .conversionCompletion _ => s.acq.conversion
  | .restitchStepCompletion => s.table.walker.map (·.due)
  | .feedWindowExpiry => s.depth.windowTimer
  | .pickupEdge _ elapsed => some (s.clock + elapsed)
  | .pickupTimeout d => (s.motor d).pickupTimer
  | .loopTimerExpiry d => (s.motor d).loopTimer
  | .pwmPeriodStart => s.drives.pwmTimer
  | .stallConfirmExpiry w => (s.wheel w).confirm
  | .reverseTimerExpiry w => (s.wheel w).reverseTimer
  | .loadedTimeExpiry => s.drives.loadedTimer
  | .travelTimerExpiry i => (s.plate i).travel
  | .reportStaleExpiry => s.ret.staleTimer
  | .blockageConfirmExpiry => s.ret.confirm
  | .recoveryTimerExpiry => s.ret.recovery
  | .wheelDemandExpiry => s.demand.life
  | _ => none

/-- What an event does when it comes, at the time the clock then shows. -/
def eventRule : Instr → State → State
  | .warm => warmState
  | .frameReceived l bytes => receiveBytes l bytes
  | .bytePauseTimeout l => pauseFrame l
  | .replySent l => sendReply l
  | .silenceExpiry l => fallSilent l
  | .unknownRequest => unknownRequest
  | .pageProgramCompletion verified => pageDone verified
  | .eraseCompletion blank => eraseDone blank
  | .scanTimerExpiry => scanExpiry
  | .conversionCompletion raw => conversionDone raw
  | .encoderTransition first second => encoderChange first second
  | .restitchStepCompletion => fun s => match s.table.walker with
    | some w => restitchDone w s
    | none => s
  | .feedWindowExpiry => feedWindow
  | .pickupEdge d _ => pickupEdge d
  | .pickupTimeout d => pickupSilent d
  | .loopTimerExpiry d => loopPass d
  | .pwmPeriodStart => pwmPeriod
  | .stallConfirmExpiry w => stall w
  | .reverseTimerExpiry w => endReversal w
  | .loadedTimeExpiry => loadedTime
  | .travelTimerExpiry i => faultPlate i
  | .reportStaleExpiry => reportStale
  | .blockageConfirmExpiry => fun s => enterReturn .blocked { s with ret := { s.ret with confirm := none } }
  | .recoveryTimerExpiry => fun s => enterReturn .priming { s with ret := { s.ret with recovery := none } }
  | .wheelDemandExpiry => expireWheel
  | _ => id

theorem reach_clock_self (s : State) : s.reach s.clock = s := by simp [State.reach]

/-- The meaning of an event: with the reset line released it is taken at its time, or has no effect. -/
theorem exec_event {c : Instr} (h : requestRow c = none) (h1 : c ≠ .cold) (h2 : c ≠ .resetLineAssert) {s : State}
    (hs : s.resetLine = false) : exec c s = .next (onExpiry (eventTime s c) s (eventRule c)) := by
  cases c with
  | cold | resetLineAssert => contradiction
  | warm =>
    change Host.Outcome.next (unlessReset s _) = _
    rw [unlessReset_released hs]
    simp only [eventTime]
    split
    · rw [onExpiry, reach_clock_self]; rfl
    · rfl
  | frameReceived | replySent | unknownRequest =>
    change Host.Outcome.next (unlessReset s _) = _
    rw [unlessReset_released hs, eventTime, onExpiry, reach_clock_self]; rfl
  | encoderTransition =>
    change Host.Outcome.next (if s.resetLine = true then _ else _) = _
    rw [if_neg (by simp [hs]), eventTime, onExpiry, reach_clock_self]; rfl
  | restitchStepCompletion =>
    change Host.Outcome.next (unlessReset s _) = _
    rw [unlessReset_released hs, eventTime]
    cases hw : s.table.walker with
    | none => rfl
    | some w => simp [onExpiry, eventRule, hw]
  | _ =>
    first
    | (change Host.Outcome.next (unlessReset s _) = _; rw [unlessReset_released hs]; rfl)
    | cases h

/-- While the reset line is asserted a command other than the two resets keeps everything but the encoder levels. -/
theorem exec_asserted {s : State} {c : Instr} (hs : s.resetLine = true) (h1 : c ≠ .resetLineAssert) (h2 : c ≠ .cold) :
    exec c s = .next (match c with
      | .encoderTransition first second => setLines first second s
      | _ => s) := by
  cases c with
  | cold | resetLineAssert => contradiction
  | encoderTransition =>
    change Host.Outcome.next (if s.resetLine = true then _ else _) = _
    rw [if_pos hs]
  | _ => exact congrArg Host.Outcome.next (unlessReset_asserted hs _)

/-! ## One case analysis for every command -/

/-- A request is taken when it is the granted one, and has no effect otherwise. -/
theorem request_cases (kind : Byte) (acc : Access) (body : Link → List Byte → State → State × Answer) (s : State) :
    request kind acc body s = s
      ∨ ∃ l f, Granted kind l f s ∧ request kind acc body s = serve acc l f body s := by
  unfold request unlessReset
  split
  · exact .inl rfl
  · rename_i hr
    beta_reduce
    split
    · rename_i l f hg
      split
      · rename_i hk
        exact .inr ⟨l, f, ⟨by simpa using hr, hg, hk⟩, rfl⟩
      · exact .inl rfl
    · exact .inl rfl

/-- A served request leaves the block as its rule leaves it, or as it was, but for the links. -/
theorem serve_cases (acc : Access) (l : Link) (f : Frame) (body : Link → List Byte → State → State × Answer)
    (s : State) : (∃ a, serve acc l f body s = buildReply l f a (takeHead l s))
      ∨ ∃ a, linkRefusal acc (takeHead l s) l = none
          ∧ serve acc l f body s = buildReply l f a (body l f.payload (takeHead l s)).1 := by
  unfold serve
  cases h : linkRefusal acc (takeHead l s) l with
  | some r => exact .inl ⟨refusal r, by simp only [h]⟩
  | none => exact .inr ⟨(body l f.payload (takeHead l s)).2, rfl, by simp only [h]⟩

/-- What a command that completes has done. -/
theorem exec_cases {c : Instr} {s t : State} (h : exec c s = .next t) :
    t = s
    ∨ (c = .cold ∧ t = coldState s) ∨ (c = .resetLineAssert ∧ t = { coldState s with resetLine := true })
    ∨ (∃ first second, c = .encoderTransition first second ∧ t = setLines first second s)
    ∨ (∃ kind acc l f, requestRow c = some (kind, acc) ∧ Granted kind l f s ∧ t = serve acc l f (rowRule c) s)
    ∨ ∃ due, s.resetLine = false ∧ requestRow c = none ∧ eventTime s c = some due ∧ t = eventRule c (s.reach due) := by
  by_cases h1 : c = .cold
  · subst h1; cases h; exact .inr (.inl ⟨rfl, rfl⟩)
  by_cases h2 : c = .resetLineAssert
  · subst h2; cases h; exact .inr (.inr (.inl ⟨rfl, rfl⟩))
  cases hr : requestRow c with
  | some row =>
    obtain ⟨kind, acc⟩ := row
    rw [exec_row hr] at h
    cases h
    rcases request_cases kind acc (rowRule c) s with e | ⟨l, f, hg, e⟩
    · exact .inl e
    · exact .inr (.inr (.inr (.inr (.inl ⟨kind, acc, l, f, rfl, hg, e⟩))))
  | none =>
    cases hs : s.resetLine with
    | true =>
      rw [exec_asserted hs h2 h1] at h
      cases c with
      | encoderTransition a b => cases h; exact .inr (.inr (.inr (.inl ⟨a, b, rfl, rfl⟩)))
      | _ => cases h; exact .inl rfl
    | false =>
      rw [exec_event hr h1 h2 hs] at h
      cases he : eventTime s c with
      | none => rw [he] at h; cases h; exact .inl rfl
      | some due => rw [he] at h; cases h; exact .inr (.inr (.inr (.inr (.inr ⟨due, rfl, rfl, rfl, rfl⟩))))

/-- Building a reply touches the links only. -/
theorem buildReply_eq (l : Link) (f : Frame) (a : Answer) (s : State) :
    buildReply l f a s = { s with links := (buildReply l f a s).links } := by
  cases l <;> rfl

@[simp] theorem reach_link (s : State) (n : Nat) (l : Link) : (s.reach n).link l = s.link l := by cases l <;> rfl
@[simp] theorem reach_motor (s : State) (n : Nat) (d : DriveId) : (s.reach n).motor d = s.motor d := by cases d <;> rfl
@[simp] theorem reach_wheel (s : State) (n : Nat) (w : WheelId) : (s.reach n).wheel w = s.wheel w := by cases w <;> rfl
@[simp] theorem reach_plate (s : State) (n : Nat) (i : PlateId) : (s.reach n).plate i = s.plate i := by cases i <;> rfl

/-- Whether an event can come does not depend on the clock. -/
theorem eventTime_reach (s : State) (n : Nat) (c : Instr) : eventTime (s.reach n) c = none ↔ eventTime s c = none := by
  cases c <;> simp [eventTime, State.warmDue]

/-- A property that neither the links nor the clock touch is kept by a command when the resets, the rule of its row and
the rule of its event keep it. -/
theorem exec_keeps {P : State → Prop} {c : Instr} {s t : State} (h : exec c s = .next t) (hP : P s)
    (links : ∀ s n, P s → P { s with links := n }) (clock : ∀ s n, P s → P { s with clock := n })
    (cold : P s → P (coldState s)) (line : ∀ s, P s → P { s with resetLine := true })
    (lines : ∀ first second, P s → P (setLines first second s))
    (row : ∀ (l : Link) (p : List Byte) (s : State), requestRow c ≠ none → P s → P (rowRule c l p s).1)
    (event : ∀ s : State, requestRow c = none → eventTime s c ≠ none → P s → P (eventRule c s)) : P t := by
  rcases exec_cases h with
    rfl | ⟨-, rfl⟩ | ⟨-, rfl⟩ | ⟨a, b, -, rfl⟩ | ⟨kind, acc, l, f, hr, hg, rfl⟩ | ⟨due, -, hr, he, rfl⟩
  · exact hP
  · exact cold hP
  · exact line _ (cold hP)
  · exact lines a b hP
  · have hH : P (takeHead l s) := by rw [takeHead_eq]; exact links _ _ hP
    rcases serve_cases acc l f (rowRule c) s with ⟨a, e⟩ | ⟨a, -, e⟩ <;> rw [e, buildReply_eq]
    · exact links _ _ hH
    · exact links _ _ (row _ _ _ (by simp [hr]) hH)
  · exact event _ hr (by rw [Ne, eventTime_reach, he]; nofun) (clock s _ hP)

/-! ## One case analysis for every step -/

/-- A step runs a command, waiting or ready, stands still, or lets 1 µs pass. -/
theorem step_cases {s t : State} (h : step s = .next t) :
    (∃ c q d, exec c { s with pending := q, draws := d } = .next t) ∨ t = s ∨ t = s.reach (s.clock + 1) := by
  unfold step at h
  split at h
  · rename_i c rest hq
    exact .inl ⟨c, rest, s.draws, h⟩
  · unfold idle at h
    split at h
    · cases h; exact .inr (.inl rfl)
    · split at h
      · rename_i c hc
        exact .inl ⟨c, s.pending, s.draws + 1, h⟩
      · cases h; exact .inr (.inr rfl)

/-- A property that the queue, the count of free choices and the clock do not touch is kept by every step when every
command keeps it. -/
theorem step_keeps {P : State → Prop} {s t : State} (h : step s = .next t) (hP : P s)
    (queue : ∀ s q d, P s → P { s with pending := q, draws := d }) (clock : ∀ s n, P s → P { s with clock := n })
    (command : ∀ c s t, exec c s = .next t → P s → P t) : P t := by
  rcases step_cases h with ⟨c, q, d, hc⟩ | rfl | rfl
  · exact command c _ _ hc (queue s q d hP)
  · exact hP
  · exact clock s _ hP

end Sys2Proof.Machine
end

section
/-! What each command may touch: the parts of the state that its meaning can change, its links, clock and count of free
choices apart (`exec_touches`). A statement about every command then looks at those only that touch the part it speaks of. -/

namespace Sys2Proof.Machine

open Sys2Proof.Safety

/-! ## Parts of the state -/

/-- The parts of the state that a command's frame speaks of. -/
inductive Part where
  | resetLine | panel | geometry | acq | depth | table | align | drives | plates | ret | demand | archive | pending
deriving DecidableEq

/-- Two states agree in a part. -/
def Part.Same (s t : State) : Part → Prop
  | .resetLine => t.resetLine = s.resetLine
  | .panel => t.panel = s.panel
  | .geometry => t.geometry = s.geometry
  | .acq => t.acq = s.acq
  | .depth => t.depth = s.depth
  | .table => t.table = s.table
  | .align => t.align = s.align
  | .drives => t.drives = s.drives
  | .plates => t.plates = s.plates
  | .ret => t.ret = s.ret
  | .demand => t.demand = s.demand
  | .archive => t.archive = s.archive
  | .pending => t.pending = s.pending

/-- From `s` to `t` nothing changed but these parts, the links, the clock and the count of free choices. -/
def Touches (ps : List Part) (s t : State) : Prop := ∀ p, p ∉ ps → p.Same s t

theorem Part.Same.rfl {p : Part} {s : State} : p.Same s s := by cases p <;> exact Eq.refl _

theorem Part.Same.trans {p : Part} {s t u : State} (h : p.Same s t) (g : p.Same t u) : p.Same s u := by
  cases p <;> exact Eq.trans g h

theorem touches_refl (ps : List Part) (s : State) : Touches ps s s := fun _ _ => .rfl

theorem touches_trans {ps : List Part} {s t u : State} (h : Touches ps s t) (g : Touches ps t u) : Touches ps s u :=
  fun p hp => (h p hp).trans (g p hp)

theorem touches_mono {ps qs : List Part} {s t : State} (h : Touches ps s t) (hs : ps ⊆ qs) : Touches qs s t :=
  fun p hp => h p fun m => hp (hs m)

/-- The frame part by part. -/
theorem touches_iff {ps : List Part} {s t : State} : Touches ps s t ↔
    (.resetLine ∉ ps → t.resetLine = s.resetLine) ∧ (.panel ∉ ps → t.panel = s.panel)
    ∧ (.geometry ∉ ps → t.geometry = s.geometry) ∧ (.acq ∉ ps → t.acq = s.acq) ∧ (.depth ∉ ps → t.depth = s.depth)
    ∧ (.table ∉ ps → t.table = s.table) ∧ (.align ∉ ps → t.align = s.align) ∧ (.drives ∉ ps → t.drives = s.drives)
    ∧ (.plates ∉ ps → t.plates = s.plates) ∧ (.ret ∉ ps → t.ret = s.ret) ∧ (.demand ∉ ps → t.demand = s.demand)
    ∧ (.archive ∉ ps → t.archive = s.archive) ∧ (.pending ∉ ps → t.pending = s.pending) :=
  ⟨fun h => ⟨h _, h _, h _, h _, h _, h _, h _, h _, h _, h _, h _, h _, h _⟩,
    fun ⟨h1, h2, h3, h4, h5, h6, h7, h8, h9, h10, h11, h12, h13⟩ p => by cases p <;> assumption⟩

/-! ## What the shared operations touch -/

theorem govern_touches (g : HoldReasons → HoldReasons) (s : State) : Touches [.depth] s (govern g s) := by
  simp [touches_iff]

theorem raise_touches (f : Flag) (s : State) : Touches [] s (raise f s) := by simp [touches_iff]

theorem raiseIf_touches (c : Bool) (f : Flag) (s : State) : Touches [] s (raiseIf c f s) := by simp [touches_iff]

theorem setAcq_touches (f : Acquisition → Acquisition) (s : State) : Touches [.acq] s (s.setAcq f) := by
  simp [touches_iff, State.setAcq]

theorem reviewHolds_touches (s : State) : Touches [.table] s (reviewHolds s) := by simp [touches_iff]

theorem settle_touches (k : Nat) (s : State) : Touches [.table] s (settle k s) := by
  unfold settle
  split
  · dsimp only
    split
    · split <;> simp [touches_iff]
    · exact touches_refl _ _
  · exact touches_refl _ _

theorem settleEach_touches (ks : List Nat) (s : State) : Touches [.table] s (settleEach ks s) := by
  induction ks generalizing s with
  | nil => exact touches_refl _ _
  | cons k ks ih => exact touches_trans (settle_touches k s) (ih _)

theorem endWalkStage_touches (s : State) : Touches [.table, .archive] s (endWalkStage s) := by
  unfold endWalkStage
  split
  · exact touches_trans (touches_mono (settleEach_touches (openStations s.table.records) s) (by decide))
      (by simp [touches_iff, startWrite])
  · exact touches_refl _ _

theorem crossing_touches (k : Nat) (ref : RefState) (s : State) : Touches [.table] s (crossing k ref s) := by
  unfold crossing
  split
  · exact touches_refl _ _
  · dsimp only
    split <;> simp [touches_iff]

theorem enterReturn_touches (st : ReturnState) (s : State) : Touches [.depth, .ret] s (enterReturn st s) := by
  simp [touches_iff]

theorem setWheel_touches (s : State) (w : WheelId) (d : WheelDrive) : Touches [.drives] s (s.setWheel w d) := by
  cases w <;> simp [touches_iff, State.setWheel]

theorem setMotor_touches (s : State) (d : DriveId) (m : Motor) : Touches [.drives] s (s.setMotor d m) := by
  cases d <;> simp [touches_iff, State.setMotor]

theorem setPlate_touches (s : State) (i : PlateId) (p : Plate) : Touches [.plates] s (s.setPlate i p) := by
  cases i <;> simp [touches_iff, State.setPlate]

theorem setLink_touches (s : State) (l : Link) (x : LinkState) : Touches [] s (s.setLink l x) := by
  simp [touches_iff]

theorem publishWheel_touches (w : WheelId) (d : WheelDrive) (s : State) :
    Touches [.drives, .depth] s (publishWheel w d s) := by
  rw [publishWheel_eq]
  exact touches_trans (touches_mono (setWheel_touches s w _) (by decide)) (touches_mono (govern_touches _ _) (by decide))

theorem publishPump_touches (d : PumpDrive) (s : State) : Touches [.drives, .ret, .depth] s (publishPump d s) := by
  have placed : Touches [.drives, .ret, .depth] s { s with drives := { s.drives with p := d } } := by
    simp [touches_iff]
  have enters (st : ReturnState) := touches_trans placed
    (touches_mono (enterReturn_touches st { s with drives := { s.drives with p := d } }) (by decide))
  unfold publishPump pumpStarted pumpStopped
  dsimp only
  split
  · exact placed
  · split
    · split
      · exact enters _
      · exact placed
    · exact enters _

theorem toOff_touches (s : State) : Touches [.acq, .depth] s (toOff s) := by simp [touches_iff, toOff, State.setAcq]

theorem wheelScan_touches (w : WheelId) (r : ScanRecord) (s : State) : Touches [.drives] s (wheelScan w r s) := by
  unfold wheelScan
  split
  · exact touches_trans (setWheel_touches s w _) (touches_mono (raiseIf_touches _ _ _) (by decide))
  · exact setWheel_touches s w _
  · exact touches_refl _ _

theorem driveScan_touches (r : ScanRecord) (s : State) : Touches [.drives] s (driveScan r s) :=
  touches_trans (wheelScan_touches .a r s) (wheelScan_touches .b r _)

theorem stationScan_touches (r : ScanRecord) (s : State) : Touches [.table] s (stationScan r s) := by
  unfold stationScan
  split
  · simp [touches_iff]
  · exact touches_refl _ _

theorem returnScan_touches (r : ScanRecord) (s : State) : Touches [.ret] s (returnScan r s) := by
  unfold returnScan
  split
  · dsimp only
    split <;> simp [touches_iff]
  · exact touches_refl _ _

theorem alignScan_touches (r : ScanRecord) (s : State) : Touches [.align] s (alignScan r s) := by
  unfold alignScan
  split <;> simp [touches_iff]

theorem faultPlate_touches (i : PlateId) (s : State) : Touches [.plates] s (faultPlate i s) :=
  touches_trans (setPlate_touches s i _) (touches_mono (raise_touches _ _) (by decide))

theorem plateJudgement_touches (r : ScanRecord) (i : PlateId) (s : State) :
    Touches [.plates] s (plateJudgement r i s) := by
  unfold plateJudgement
  split
  · exact touches_refl _ _
  · split
    · exact touches_refl _ _
    · split
      · exact faultPlate_touches i s
      · exact setPlate_touches s i _

theorem plateScan_touches (r : ScanRecord) (s : State) : Touches [.plates] s (plateScan r s) := by
  unfold plateScan
  split
  · refine touches_trans ?_ (touches_trans (plateJudgement_touches r .af _) (touches_trans (plateJudgement_touches r .ar _)
      (touches_trans (plateJudgement_touches r .bf _) (plateJudgement_touches r .br _))))
    simp [touches_iff]
  · exact touches_refl _ _

theorem consumers_touches (r : ScanRecord) (s : State) :
    Touches [.table, .drives, .ret, .align, .plates] s (consumers r s) := by
  have taken : Touches [.table, .drives, .ret, .align, .plates] s (returnScan r (driveScan r (stationScan r s.drawn))) :=
    touches_trans (touches_trans (touches_mono (ps := []) (by simp [touches_iff]) (by simp))
      (touches_mono (stationScan_touches r s.drawn) (by decide)))
      (touches_trans (touches_mono (driveScan_touches r _) (by decide)) (touches_mono (returnScan_touches r _) (by decide)))
  unfold consumers
  dsimp only
  split
  · exact touches_trans taken (touches_trans (touches_mono (alignScan_touches r _) (by decide))
      (touches_mono (plateScan_touches r _) (by decide)))
  · exact touches_trans taken (touches_trans (touches_mono (plateScan_touches r _) (by decide))
      (touches_mono (alignScan_touches r _) (by decide)))

/-! ## What the rules of the events touch -/

theorem judgeCrossing_touches (b a : Int) (s : State) : Touches [.depth, .table] s (judgeCrossing b a s) := by
  unfold judgeCrossing
  dsimp only
  split
  · have crossed : Touches [.depth, .table] s (crossing s.depth.floor s.depth.ref
        { s with depth := { s.depth with floor := s.depth.floor + 1 } }) :=
      touches_trans (t := { s with depth := { s.depth with floor := s.depth.floor + 1 } }) (by simp [touches_iff])
        (touches_mono (crossing_touches _ _ _) (by decide))
    split
    · exact touches_trans crossed (by simp [touches_iff, setFinal])
    · exact crossed
  · exact touches_refl _ _

theorem judgeSettlement_touches (b a : Int) (s : State) : Touches [.table] s (judgeSettlement b a s) := by
  unfold judgeSettlement
  split
  · split
    · exact settle_touches _ s
    · exact touches_refl _ _
  · exact touches_refl _ _

theorem judgeRearm_touches (a : Int) (s : State) : Touches [.depth, .table] s (judgeRearm a s) := by
  unfold judgeRearm
  dsimp only
  split
  · simp [touches_iff]
  · exact touches_refl _ _

theorem illegalTransition_touches (s : State) : Touches [.depth] s (illegalTransition s) := by
  unfold illegalTransition setReference
  dsimp only
  split <;> simp [touches_iff]

theorem countStep_touches (step : Int) (s : State) : Touches [.depth, .table] s (countStep step s) := by
  unfold countStep
  dsimp only
  have counted : Touches [.depth, .table] s { s with depth := { s.depth with count := s.depth.count + step } } := by
    simp [touches_iff]
  split
  · split
    · exact touches_trans counted (touches_trans (judgeCrossing_touches _ _ _)
        (touches_mono (judgeSettlement_touches _ _ _) (by decide)))
    · exact touches_trans counted (judgeRearm_touches _ _)
  · exact touches_mono (illegalTransition_touches s) (by decide)

theorem encoderChange_touches (a b : Bool) (s : State) : Touches [.depth, .table] s (encoderChange a b s) := by
  have lined : Touches [.depth, .table] s (setLines a b s) := by simp [touches_iff, setLines]
  unfold encoderChange
  dsimp only
  split
  · exact lined
  · exact touches_trans lined (countStep_touches _ _)
  · exact touches_trans lined (countStep_touches _ _)
  · exact touches_trans lined (touches_mono (illegalTransition_touches _) (by decide))

theorem restitchRecord_touches (r : Station) (s : State) : Touches [.table] s (restitchRecord r s) := by
  unfold restitchRecord
  dsimp only
  split <;> simp [touches_iff]

theorem restitch_touches (w : Walker) (s : State) : Touches [.table] s (restitch w s) := by
  have advanced (c : Nat) (s : State) : Touches [.table] s (advanceWalker c s) := by simp [touches_iff, advanceWalker]
  unfold restitch
  split
  · exact touches_trans (restitchRecord_touches _ s) (advanced _ _)
  · exact advanced _ _

theorem restitchDone_touches (w : Walker) (s : State) : Touches [.table, .archive] s (restitchDone w s) := by
  have stitched : Touches [.table, .archive] s (restitch w s) := touches_mono (restitch_touches w s) (by decide)
  unfold restitchDone
  dsimp only
  split
  · exact touches_trans stitched (endWalkStage_touches _)
  · exact stitched

theorem startScan_touches (st : AcqState) (s : State) : Touches [.acq] s (startScan st s) := setAcq_touches _ s

theorem afterScan_touches (s : State) : Touches [.acq, .depth] s (afterScan s) := by
  have adopted : Touches [.acq, .depth] s (adopt s) := touches_mono (setAcq_touches _ s) (by decide)
  unfold afterScan
  split
  · exact touches_trans adopted (toOff_touches _)
  · split
    · dsimp only
      split
      · exact touches_trans adopted (touches_trans (touches_mono (setAcq_touches _ _) (by decide))
          (touches_mono (setAcq_touches _ _) (by decide)))
      · exact touches_trans adopted (touches_mono (startScan_touches _ _) (by decide))
      · exact touches_trans adopted (toOff_touches _)
    · exact touches_mono (setAcq_touches _ s) (by decide)
    · exact touches_mono (setAcq_touches _ s) (by decide)

theorem setAcqFault_touches (b : Bool) (s : State) : Touches [.acq, .depth] s (setAcqFault b s) := by
  simp [touches_iff, setAcqFault, State.setAcq]

theorem judgeScan_touches (v : Bool) (s : State) : Touches [.acq, .depth] s (judgeScan v s) := by
  have counted (f : Acquisition → Acquisition) : Touches [.acq, .depth] s (s.setAcq f) :=
    touches_mono (setAcq_touches _ s) (by decide)
  unfold judgeScan
  split
  · exact touches_trans (counted _) (setAcqFault_touches _ _)
  · split
    · exact touches_refl _ _
    · dsimp only
      split
      · exact touches_trans (counted _) (touches_trans (touches_mono (raise_touches _ _) (by decide))
          (setAcqFault_touches _ _))
      · exact counted _

theorem publishScan_touches (s : State) :
    Touches [.acq, .depth, .table, .drives, .ret, .align, .plates] s (publishScan s) :=
  touches_trans (touches_mono (judgeScan_touches _ s) (by decide))
    (touches_trans (touches_mono (setAcq_touches _ _) (by decide)) (touches_mono (consumers_touches _ _) (by decide)))

theorem scanCompletion_touches (s : State) :
    Touches [.acq, .depth, .table, .drives, .ret, .align, .plates] s (scanCompletion s) := by
  unfold scanCompletion
  refine touches_trans ?_ (touches_mono (afterScan_touches _) (by decide))
  split
  · exact touches_refl _ _
  · exact publishScan_touches s

theorem zeroCheck_touches (raw : Int) (s : State) : Touches [.acq] s (zeroCheck raw s) := by
  unfold zeroCheck
  dsimp only
  split
  · exact setAcq_touches _ s
  · exact touches_mono (raise_touches _ s) (by decide)

/-- The zero check of a ZR conversion, where there is one (R20). -/
def zeroChecked (raw : Int) (c : Channel) (s : State) : State :=
  if c = .zr ∧ s.acq.state ≠ .settling then zeroCheck raw s else s

/-- The result of a conversion joins those of the scan in flight, and the next conversion ends 2 ms later (R18). -/
def converted (raw : Int) (c : Channel) (s : State) : State :=
  let s := zeroChecked raw c s
  s.setAcq fun a => { a with
    results := a.results ++ [{ channel := c, result := convert a.zero c raw }]
    conversion := some (s.inMs 2) }

theorem conversionDone_of_entry {raw : Int} {c : Channel} {s : State}
    (h : s.acq.activeList[s.acq.results.length]? = some c) : conversionDone raw s =
      if (converted raw c s).acq.results.length < (converted raw c s).acq.activeList.length then converted raw c s
      else scanCompletion (converted raw c s) := by
  unfold conversionDone
  rw [h]
  rfl

theorem conversionDone_of_end {raw : Int} {s : State} (h : s.acq.activeList[s.acq.results.length]? = none) :
    conversionDone raw s = scanCompletion s := by
  unfold conversionDone
  rw [h]

theorem zeroChecked_touches (raw : Int) (c : Channel) (s : State) : Touches [.acq] s (zeroChecked raw c s) := by
  unfold zeroChecked
  split
  · exact zeroCheck_touches raw s
  · exact touches_refl _ _

theorem converted_touches (raw : Int) (c : Channel) (s : State) : Touches [.acq] s (converted raw c s) :=
  touches_trans (zeroChecked_touches raw c s) (setAcq_touches _ _)

theorem conversionDone_touches (raw : Int) (s : State) :
    Touches [.acq, .depth, .table, .drives, .ret, .align, .plates] s (conversionDone raw s) := by
  cases h : s.acq.activeList[s.acq.results.length]? with
  | none => rw [conversionDone_of_end h]; exact scanCompletion_touches s
  | some c =>
    have gained : Touches [.acq, .depth, .table, .drives, .ret, .align, .plates] s (converted raw c s) :=
      touches_mono (converted_touches raw c s) (by decide)
    rw [conversionDone_of_entry h]
    split
    · exact gained
    · exact touches_trans gained (scanCompletion_touches _)

theorem startAtExpiry_touches (s : State) : Touches [.acq, .depth] s (startAtExpiry s) := by
  have adopted : Touches [.acq, .depth] s (adopt s) := touches_mono (setAcq_touches _ s) (by decide)
  unfold startAtExpiry
  dsimp only
  split
  · exact touches_trans adopted (touches_mono (startScan_touches _ _) (by decide))
  · exact touches_trans adopted (touches_trans (touches_mono (setAcq_touches _ _) (by decide))
      (touches_mono (startScan_touches _ _) (by decide)))
  · exact touches_trans adopted (toOff_touches _)

theorem scanExpiry_touches (s : State) : Touches [.acq, .depth] s (scanExpiry s) := by
  have reloaded : Touches [.acq, .depth] s (reloadScanTimer s) := touches_mono (setAcq_touches _ s) (by decide)
  unfold scanExpiry
  dsimp only
  split
  · exact touches_trans reloaded (startAtExpiry_touches _)
  · exact touches_trans reloaded (touches_mono (raise_touches _ _) (by decide))
  · exact touches_trans reloaded (touches_mono (raise_touches _ _) (by decide))
  · exact reloaded

theorem feedWindow_touches (s : State) : Touches [.depth, .ret] s (feedWindow s) := by
  simp [touches_iff, feedWindow, windowCompletion]

theorem pickupEdge_touches (d : DriveId) (s : State) : Touches [.drives] s (pickupEdge d s) := by
  unfold pickupEdge
  dsimp only
  split
  · exact touches_refl _ _
  · exact touches_trans (setMotor_touches s d _) (touches_mono (raiseIf_touches _ _ _) (by decide))

theorem loopPass_touches (d : DriveId) (s : State) : Touches [.drives, .ret, .depth] s (loopPass d s) := by
  cases d with
  | a => exact touches_mono (publishWheel_touches .a (wheelPass .a s) s) (by decide)
  | b => exact touches_mono (publishWheel_touches .b (wheelPass .b s) s) (by decide)
  | p => exact publishPump_touches (pumpPass s) s

theorem stall_touches (w : WheelId) (s : State) : Touches [.drives, .depth] s (stall w s) := by
  unfold stall
  dsimp only
  split
  · exact touches_trans (touches_mono (raise_touches .driveStall s) (by decide)) (publishWheel_touches _ _ _)
  · exact touches_trans (touches_mono (raise_touches .driveStall s) (by decide)) (touches_trans
      (touches_mono (raise_touches .driveLockout _) (by decide)) (publishWheel_touches _ _ _))

theorem loadedTick_touches (w : WheelId) (s : State) : Touches [.drives] s (loadedTick w s) := by
  unfold loadedTick
  dsimp only
  split
  · exact touches_trans (setWheel_touches s w _) (touches_mono (raiseIf_touches _ _ _) (by decide))
  · exact touches_refl _ _

theorem loadedTime_touches (s : State) : Touches [.drives] s (loadedTime s) :=
  touches_trans (t := { s with drives := { s.drives with loadedTimer := some (s.clock + 100000) } })
    (by simp [touches_iff]) (touches_trans (loadedTick_touches .a _) (loadedTick_touches .b _))

theorem reportStale_touches (s : State) : Touches [.ret, .depth] s (reportStale s) := by
  unfold reportStale
  dsimp only
  split <;> simp [touches_iff]

theorem setExpired_touches (b : Bool) (s : State) : Touches [.demand, .depth] s (setExpired b s) := by
  simp [touches_iff, setExpired]

theorem closeWriteEnd_touches (s : State) : Touches [.panel, .depth, .table, .archive] s (closeWriteEnd s) := by
  simp [touches_iff, closeWriteEnd, setPanel]

theorem pageDone_touches (v : Bool) (s : State) : Touches [.panel, .depth, .table, .archive] s (pageDone v s) := by
  have placed (i : Nat) (x : Slot) : Touches [.panel, .depth, .table, .archive] s (s.setSlot i x) := by
    simp [touches_iff]
  unfold pageDone
  split
  · dsimp only
    split
    · split
      · simp [touches_iff]
      · exact touches_trans (placed _ _) (closeWriteEnd_touches _)
    · exact touches_trans (placed _ _) (touches_trans (touches_mono (raise_touches _ _) (by decide))
        (closeWriteEnd_touches _))
  all_goals exact touches_refl _ _

theorem eraseEnd_touches (i : Nat) (blank : Bool) (s : State) : Touches [.archive] s (eraseEnd i blank s) := by
  unfold eraseEnd
  split <;> simp [touches_iff]

theorem wipeNext_touches (rest : List Nat) (s : State) : Touches [.archive] s (wipeNext rest s) := by
  unfold wipeNext eraseSlot
  split <;> simp [touches_iff]

theorem eraseDone_touches (blank : Bool) (s : State) : Touches [.archive] s (eraseDone blank s) := by
  unfold eraseDone
  split
  · rename_i i _ _
    exact touches_trans (eraseEnd_touches i blank s) (by simp [touches_iff])
  · exact touches_trans (eraseEnd_touches _ _ s) (wipeNext_touches _ _)
  all_goals exact touches_refl _ _

theorem unknownRequest_touches (s : State) : Touches [] s (unknownRequest s) := by
  unfold unknownRequest
  split
  · split <;> simp [touches_iff]
  · exact touches_refl _ _

theorem receiveBytes_touches (l : Link) (bytes : List Byte) (s : State) : Touches [] s (receiveBytes l bytes s) := by
  unfold receiveBytes
  split
  · exact touches_refl _ _
  · exact setLink_touches s l _

theorem sendReply_touches (l : Link) (s : State) : Touches [] s (sendReply l s) := by
  unfold sendReply
  split
  · exact touches_refl _ _
  · exact setLink_touches s l _

theorem warmState_touches (s : State) :
    Touches [.acq, .depth, .table, .align, .drives, .plates, .demand] s (warmState s) := by
  simp [touches_iff, warmState]

/-! ## What the rules of the request rows touch -/

theorem payloadOf_touches {ps : List Part} {n : Nat} {body : Link → List Byte → State → State × Answer} {l : Link}
    {p : List Byte} {s : State} (h : Touches ps s (body l p s).1) : Touches ps s (payloadOf n body l p s).1 := by
  unfold payloadOf
  split
  · exact h
  · exact touches_refl _ _

theorem emptyPayload_touches {ps : List Part} {body : Link → State → State × Answer} {l : Link} {p : List Byte}
    {s : State} (h : Touches ps s (body l s).1) : Touches ps s (emptyPayload body l p s).1 := by
  unfold emptyPayload
  split
  · exact h
  · exact touches_refl _ _

theorem writeGroup_touches {ps : List Part} {n : Nat} {ok : Entry → Bool} {range : Nat → Int × Int}
    {accept : List Entry → State → State} {p : List Byte} {s : State} (h : ∀ es, Touches ps s (accept es s)) :
    Touches ps s (writeGroup n ok range accept p s).1 := by
  unfold writeGroup
  split
  · exact touches_refl _ _
  · exact h _

theorem openGovernor_touches (b : Bool) (s : State) : Touches [.depth] s (openGovernor b s) := by
  unfold openGovernor
  dsimp only
  split
  · split <;> simp [touches_iff]
  · exact govern_touches _ s

theorem openPanel_touches (g : Geometry) (s : State) :
    Touches [.panel, .geometry, .depth, .table, .drives, .ret] s (openPanel g s) :=
  touches_trans (by simp [touches_iff]) (touches_mono (openGovernor_touches _ _) (by decide))

theorem openPanelBody_touches (l : Link) (p : List Byte) (s : State) :
    Touches [.panel, .geometry, .depth, .table, .drives, .ret] s (openPanelBody l p s).1 := by
  unfold openPanelBody
  split
  · exact touches_refl _ _
  · dsimp only
    split
    · exact touches_refl _ _
    · exact openPanel_touches _ s

theorem setPanel_touches (p : PanelState) (s : State) : Touches [.panel, .depth] s (setPanel p s) := by
  simp [touches_iff, setPanel]

theorem closePanelBody_touches (l : Link) (s : State) :
    Touches [.panel, .depth, .table, .archive] s (closePanelBody l s).1 := by
  unfold closePanelBody
  split
  · exact touches_refl _ _
  · split
    · exact touches_refl _ _
    · split
      · exact touches_refl _ _
      · exact touches_trans (by simp [touches_iff]) (touches_trans (touches_mono (setPanel_touches _ _) (by decide))
          (touches_mono (endWalkStage_touches _) (by decide)))

theorem abandonPanelBody_touches (l : Link) (s : State) :
    Touches [.panel, .depth, .table] s (abandonPanelBody l s).1 := by
  unfold abandonPanelBody
  split <;> simp [touches_iff, setPanel]

theorem extendDepthBody_touches (l : Link) (p : List Byte) (s : State) :
    Touches [.geometry, .depth] s (extendDepthBody l p s).1 := by
  unfold extendDepthBody
  dsimp only
  split
  · exact touches_refl _ _
  · split
    · exact touches_refl _ _
    · unfold extendDesign setFinal
      dsimp only
      split <;> simp [touches_iff]

theorem setDepthBody_touches (l : Link) (p : List Byte) (s : State) :
    Touches [.depth, .table] s (setDepthBody l p s).1 := by
  unfold setDepthBody
  dsimp only
  split
  · exact touches_refl _ _
  · split <;> simp [touches_iff, setReference, placeFloor]

theorem leaveOff_touches (s : State) : Touches [.acq, .depth] s (leaveOff s) := by
  unfold leaveOff loadScanTimer startScan adopt State.setAcq
  dsimp only
  split <;> simp [touches_iff]

theorem acceptAcquisition_touches (q : AcqRequest) (s : State) :
    Touches [.acq, .depth] s (acceptAcquisition q s) := by
  have pends (f : Acquisition → Acquisition) (u : State) : Touches [.acq, .depth] u (u.setAcq f) :=
    touches_mono (setAcq_touches _ u) (by decide)
  have taken : Touches [.acq, .depth] s (if q.restart then reloadScanTimer (s.setAcq fun a => { a with
      pendingList := q.list, pendingMode := q.mode, newPeriod := clamp 10 1000 q.period })
      else s.setAcq fun a => { a with
        pendingList := q.list, pendingMode := q.mode, newPeriod := clamp 10 1000 q.period }) := by
    split
    · exact touches_trans (pends _ _) (pends _ _)
    · exact pends _ _
  unfold acceptAcquisition
  dsimp only
  split
  · exact touches_trans taken (touches_trans (pends _ _) (toOff_touches _))
  · exact touches_trans taken (leaveOff_touches _)
  · exact touches_trans taken (leaveOff_touches _)
  · exact taken

theorem setAcquisitionBody_touches (l : Link) (p : List Byte) (s : State) :
    Touches [.acq, .depth] s (setAcquisitionBody l p s).1 := by
  unfold setAcquisitionBody
  split
  · exact touches_refl _ _
  · exact acceptAcquisition_touches _ s

theorem restartDriveBody_touches (l : Link) (p : List Byte) (s : State) :
    Touches [.drives, .depth] s (restartDriveBody l p s).1 := by
  unfold restartDriveBody
  split
  · exact touches_refl _ _
  · split
    · exact publishWheel_touches _ _ s
    · exact touches_refl _ _

theorem clearPlate_touches (s : State) (i : PlateId) : Touches [.plates] s (clearPlate s i) := by
  unfold clearPlate
  split
  · exact setPlate_touches s i _
  · exact touches_refl _ _

theorem clearPlates_touches (ids : List PlateId) (s : State) : Touches [.plates] s (ids.foldl clearPlate s) := by
  induction ids generalizing s with
  | nil => exact touches_refl _ _
  | cons i ids ih => exact touches_trans (clearPlate_touches s i) (ih _)

theorem clearPlateFaultBody_touches (l : Link) (p : List Byte) (s : State) :
    Touches [.plates] s (clearPlateFaultBody l p s).1 := by
  unfold clearPlateFaultBody
  split
  · exact touches_refl _ _
  · split
    · exact clearPlates_touches _ s
    · exact touches_refl _ _

theorem renewWheel_touches (s : State) : Touches [.demand, .depth] s (renewWheel s) :=
  touches_trans (t := { s with demand := { s.demand with life := some (s.inMs 2000) } }) (by simp [touches_iff])
    (setExpired_touches _ _)

theorem acceptWheel_touches (es : List Entry) (s : State) : Touches [.demand, .align, .depth] s (acceptWheel es s) :=
  touches_trans (t := alignMode { s with demand := { s.demand with
    wheel := writeAll WheelGroup.write s.demand.wheel es } }) (by simp [touches_iff, alignMode])
    (touches_mono (renewWheel_touches _) (by decide))

theorem transferPump_touches (o : Owner) (s : State) : Touches [.demand] s (transferPump o s) := by
  simp [touches_iff, transferPump]

theorem takePumpBody_touches (l : Link) (s : State) : Touches [.demand] s (takePumpBody l s).1 := by
  unfold takePumpBody
  split
  · simp [touches_iff]
  · split
    · exact transferPump_touches _ s
    · exact touches_refl _ _

theorem reclaimPumpBody_touches (l : Link) (s : State) : Touches [.demand] s (reclaimPumpBody l s).1 := by
  unfold reclaimPumpBody
  split
  · simp [touches_iff]
  · split
    · exact transferPump_touches _ s
    · exact touches_refl _ _

theorem releasePumpBody_touches (l : Link) (s : State) : Touches [.demand] s (releasePumpBody l s).1 := by
  unfold releasePumpBody
  split <;> simp [touches_iff]

theorem takeReport_touches (r : Report) (s : State) : Touches [.ret, .depth] s (takeReport r s) := by
  simp [touches_iff, takeReport]

theorem readSnapshotBody_touches (l : Link) (s : State) : Touches [] s (readSnapshotBody l s).1 := by
  unfold readSnapshotBody
  split <;> exact touches_refl _ _

theorem evaluateStations_touches (l : Link) (first count : Nat) (s : State) :
    Touches [.table] s (evaluateStations l first count s).1 := by
  unfold evaluateStations
  split
  · exact touches_refl _ _
  · split
    · exact touches_refl _ _
    · dsimp only
      split <;> simp [touches_iff]

theorem readStationsBody_touches (l : Link) (p : List Byte) (s : State) :
    Touches [.table] s (readStationsBody l p s).1 := by
  have freed : Touches [.table] s { s with table := s.table.setHold l .free } := by simp [touches_iff]
  unfold readStationsBody
  dsimp only
  split
  · exact touches_refl _ _
  · unfold stationsOf
    dsimp only
    split
    · exact evaluateStations_touches _ _ _ s
    · split <;> exact touches_refl _ _
    · split
      · exact freed
      · exact touches_refl _ _
    · split
      · exact freed
      · exact touches_trans freed (evaluateStations_touches _ _ _ _)

theorem cancelHoldBody_touches (l : Link) (s : State) : Touches [.table] s (cancelHoldBody l s).1 := by
  unfold cancelHoldBody
  split <;> simp [touches_iff]

theorem readArchiveBody_touches (l : Link) (p : List Byte) (s : State) :
    Touches [.archive] s (readArchiveBody l p s).1 := by
  unfold readArchiveBody
  dsimp only
  repeat' split
  all_goals simp [touches_iff]

theorem eraseSlotBody_touches (l : Link) (p : List Byte) (s : State) :
    Touches [.archive] s (eraseSlotBody l p s).1 := by
  unfold eraseSlotBody eraseSlot
  dsimp only
  repeat' split
  all_goals simp [touches_iff]

theorem wipeArchiveBody_touches (l : Link) (s : State) : Touches [.archive] s (wipeArchiveBody l s).1 := by
  unfold wipeArchiveBody
  split
  · exact touches_refl _ _
  · exact wipeNext_touches _ s

theorem clearTalliesBody_touches (l : Link) (s : State) : Touches [.drives] s (clearTalliesBody l s).1 := by
  unfold clearTalliesBody
  split <;> simp [touches_iff]

/-! ## The frame of every command -/

/-- The parts that a command other than the two resets may change. -/
def touched : Instr → List Part
  | .warm => [.acq, .depth, .table, .align, .drives, .plates, .demand]
  | .openPanel => [.panel, .geometry, .depth, .table, .drives, .ret]
  | .closePanel | .pageProgramCompletion _ => [.panel, .depth, .table, .archive]
  | .abandonPanel => [.panel, .depth, .table]
  | .extendDepth => [.geometry, .depth]
  | .setDepth | .encoderTransition _ _ => [.depth, .table]
  | .setWheel => [.demand, .align, .depth]
  | .keepWheel | .wheelDemandExpiry => [.demand, .depth]
  | .setTuning => [.demand, .align]
  | .setFeed | .setPump | .takePump | .reclaimPump | .releasePump => [.demand]
  | .setAcquisition | .scanTimerExpiry => [.acq, .depth]
  | .restartDrive | .stallConfirmExpiry _ | .reverseTimerExpiry _ => [.drives, .depth]
  | .clearPlateFault | .travelTimerExpiry _ => [.plates]
  | .reportReturn | .reportStaleExpiry | .blockageConfirmExpiry | .recoveryTimerExpiry => [.ret, .depth]
  | .feedWindowExpiry => [.depth, .ret]
  | .readStations | .cancelHold => [.table]
  | .readArchive | .eraseSlot | .wipeArchive | .eraseCompletion _ => [.archive]
  | .clearTallies | .pickupEdge _ _ | .pickupTimeout _ | .pwmPeriodStart | .loadedTimeExpiry => [.drives]
  | .conversionCompletion _ => [.acq, .depth, .table, .drives, .ret, .align, .plates]
  | .restitchStepCompletion => [.table, .archive]
  | .loopTimerExpiry _ => [.drives, .ret, .depth]
  | _ => []

theorem rowRule_touches (c : Instr) (l : Link) (p : List Byte) (s : State) : Touches (touched c) s (rowRule c l p s).1 := by
  cases c with
  | openPanel => exact payloadOf_touches (openPanelBody_touches l p s)
  | closePanel => exact emptyPayload_touches (closePanelBody_touches l s)
  | abandonPanel => exact emptyPayload_touches (abandonPanelBody_touches l s)
  | extendDepth => exact payloadOf_touches (extendDepthBody_touches l p s)
  | setDepth => exact payloadOf_touches (setDepthBody_touches l p s)
  | setWheel => exact writeGroup_touches fun es => acceptWheel_touches es s
  | keepWheel => exact emptyPayload_touches (renewWheel_touches s)
  | setFeed => exact writeGroup_touches fun es => by simp [touches_iff, touched, acceptFeed]
  | setTuning => exact writeGroup_touches fun es => by simp [touches_iff, touched, acceptTuning, alignTuning]
  | setPump => exact writeGroup_touches fun es => by simp [touches_iff, touched, acceptPump]
  | setAcquisition => exact setAcquisitionBody_touches l p s
  | restartDrive => exact payloadOf_touches (restartDriveBody_touches l p s)
  | clearPlateFault => exact payloadOf_touches (clearPlateFaultBody_touches l p s)
  | takePump => exact emptyPayload_touches (takePumpBody_touches l s)
  | reclaimPump => exact emptyPayload_touches (reclaimPumpBody_touches l s)
  | releasePump => exact emptyPayload_touches (releasePumpBody_touches l s)
  | reportReturn => exact payloadOf_touches (takeReport_touches _ s)
  | readSnapshot => exact emptyPayload_touches (readSnapshotBody_touches l s)
  | readStations => exact payloadOf_touches (readStationsBody_touches l p s)
  | cancelHold => exact emptyPayload_touches (cancelHoldBody_touches l s)
  | readArchive => exact payloadOf_touches (readArchiveBody_touches l p s)
  | eraseSlot => exact payloadOf_touches (eraseSlotBody_touches l p s)
  | wipeArchive => exact emptyPayload_touches (wipeArchiveBody_touches l s)
  | clearTallies => exact emptyPayload_touches (clearTalliesBody_touches l s)
  | restart => exact emptyPayload_touches (by simp [touches_iff, restartBody])
  | clearFlags | setMask => exact payloadOf_touches (setLink_touches s l _)
  | readStatus | readDemands | readTallies | readFlags | archiveStatus => exact emptyPayload_touches (touches_refl _ _)
  | _ => exact touches_refl _ _

theorem eventRule_touches (c : Instr) (s : State) : Touches (touched c) s (eventRule c s) := by
  cases c with
  | warm => exact warmState_touches s
  | frameReceived l bytes => exact receiveBytes_touches l bytes s
  | bytePauseTimeout l => exact setLink_touches s l _
  | replySent l => exact sendReply_touches l s
  | silenceExpiry l => exact touches_trans (setLink_touches s l _) (raise_touches _ _)
  | unknownRequest => exact unknownRequest_touches s
  | pageProgramCompletion v => exact pageDone_touches v s
  | eraseCompletion blank => exact eraseDone_touches blank s
  | scanTimerExpiry => exact scanExpiry_touches s
  | conversionCompletion raw => exact conversionDone_touches raw s
  | encoderTransition a b => exact encoderChange_touches a b s
  | restitchStepCompletion =>
    simp only [eventRule]
    split
    · exact restitchDone_touches _ s
    · exact touches_refl _ _
  | feedWindowExpiry => exact feedWindow_touches s
  | pickupEdge d => exact pickupEdge_touches d s
  | pickupTimeout d => exact setMotor_touches s d _
  | loopTimerExpiry d => exact loopPass_touches d s
  | pwmPeriodStart => simp [touches_iff, touched, eventRule, pwmPeriod]
  | stallConfirmExpiry w => exact stall_touches w s
  | reverseTimerExpiry w => exact publishWheel_touches w _ s
  | loadedTimeExpiry => exact loadedTime_touches s
  | travelTimerExpiry i => exact faultPlate_touches i s
  | reportStaleExpiry => exact reportStale_touches s
  | blockageConfirmExpiry | recoveryTimerExpiry => simp [touches_iff, touched, eventRule]
  | wheelDemandExpiry =>
    exact touches_trans (t := raise .wheelExpired { s with demand := { s.demand with life := none } })
      (by simp [touches_iff, touched]) (setExpired_touches true _)
  | _ => exact touches_refl _ _

theorem takeHead_touches (l : Link) (s : State) : Touches [] s (takeHead l s) := by simp [touches_iff]

theorem buildReply_touches (l : Link) (f : Frame) (a : Answer) (s : State) : Touches [] s (buildReply l f a s) := by
  simp [touches_iff]

/-- A command other than the two resets touches no part but those of `touched`. -/
theorem exec_touches {c : Instr} {s t : State} (h : exec c s = .next t) (h1 : c ≠ .cold) (h2 : c ≠ .resetLineAssert) :
    Touches (touched c) s t := by
  rcases exec_cases h with
    rfl | ⟨e, -⟩ | ⟨e, -⟩ | ⟨a, b, rfl, rfl⟩ | ⟨kind, acc, l, f, -, -, rfl⟩ | ⟨due, -, -, -, rfl⟩
  · exact touches_refl _ _
  · exact absurd e h1
  · exact absurd e h2
  · simp [touches_iff, touched, setLines]
  · have taken : Touches (touched c) s (takeHead l s) := touches_mono (takeHead_touches l s) (by simp)
    rcases serve_cases acc l f (rowRule c) s with ⟨a, e⟩ | ⟨a, -, e⟩ <;> rw [e]
    · exact touches_trans taken (touches_mono (buildReply_touches l f a _) (by simp))
    · exact touches_trans (touches_trans taken (rowRule_touches c l _ _))
        (touches_mono (buildReply_touches l f a _) (by simp))
  · exact touches_trans (t := s.reach due) (by simp [touches_iff]) (eventRule_touches c _)

end Sys2Proof.Machine
end

section
/-! Proofs about the step, the resets, the arbiter, and the requests and events that do not happen. -/

namespace Sys2Proof.Machine

open Sys2Proof.Safety

/-! ## The step -/

/-- Settles O1: the step's own match on the queue. -/
theorem stepRunsFrontCommand : Obligations.StepRunsFrontCommand := by
  intro s c rest h
  simp only [step, h]

theorem step_of_empty {s : State} (h : s.pending = []) : step s = idle s := by simp only [step, h]

/-- The pick falls on a ready event when there is one. -/
theorem pickReady_mem {s : State} (h : ready s ≠ []) : ∃ c ∈ ready s, pickReady s = some c := by
  have hp : 0 < (ready s).length := List.length_pos_of_ne_nil h
  have hi := Nat.mod_lt (Config.readyPick s.draws) hp
  exact ⟨(ready s)[Config.readyPick s.draws % (ready s).length], List.getElem_mem hi, List.getElem?_eq_getElem hi⟩

/-- Settles O2: the three cases of an idle step. -/
theorem idleStepTakesAReadyEvent : Obligations.IdleStepTakesAReadyEvent := by
  intro s hq
  rw [step_of_empty hq]
  refine ⟨fun hr => by simp [idle, hr], fun hr hn => ?_, fun hr hn => ?_⟩
  · have none_picked : pickReady s = none := by simp [pickReady, hn]
    simp [idle, hr, none_picked, State.reach]
  · obtain ⟨c, hc, picked⟩ := pickReady_mem hn
    exact ⟨c, hc, by simp [idle, hr, picked, State.drawn]⟩

/-! ## Completion -/

/-- Every command has a next state. -/
theorem exec_completes (c : Instr) (s : State) : ∃ t, exec c s = .next t := by cases c <;> exact ⟨_, rfl⟩

theorem pending_untouched (c : Instr) : Part.pending ∉ touched c := by cases c <;> simp [touched]

/-- Settles O3: the frame of every command leaves the queue out, and so do the resets. -/
theorem everyCommandCompletes : Obligations.EveryCommandCompletes := by
  intro c s
  obtain ⟨t, h⟩ := exec_completes c s
  refine ⟨t, h, ?_⟩
  by_cases h1 : c = .cold
  · subst h1; cases h; rfl
  by_cases h2 : c = .resetLineAssert
  · subst h2; cases h; rfl
  exact exec_touches h h1 h2 .pending (pending_untouched c)

/-! ## The resets (1.8) -/

/-- Every block has its COLD values after COLD, whatever came before. -/
theorem coldState_values (s : State) : ColdValues (coldState s) := by
  have wheel : coldWheel {} := ⟨rfl, rfl, rfl, rfl, rfl, rfl, rfl, rfl, rfl, rfl⟩
  exact ⟨rfl, rfl, rfl, rfl, rfl, rfl, rfl, wheel, wheel, rfl, rfl, rfl, rfl, rfl, rfl, rfl, rfl, rfl, rfl, rfl, rfl,
    rfl, rfl, rfl, rfl, rfl, rfl, rfl, rfl, rfl, rfl, rfl, rfl, rfl⟩

theorem coldState_reset : coldState State.reset = State.reset := by decide

/-- The ranges of a group, its values numbered. -/
theorem inRanges_of_zipIdx {range : Nat → Int × Int} {vs : List Int}
    (h : ∀ x ∈ vs.zipIdx, (range (x.2 + 1)).1 ≤ x.1 ∧ x.1 ≤ (range (x.2 + 1)).2) : InRanges range vs :=
  fun i v hv => h (v, i) (List.mem_zipIdx_iff_getElem?.mpr hv)

theorem reset_demandLaw : DemandLaw State.reset :=
  ⟨inRanges_of_zipIdx (by decide), inRanges_of_zipIdx (by decide), inRanges_of_zipIdx (by decide),
    inRanges_of_zipIdx (by decide)⟩

/-- Settles O4: the COLD values are those of any COLD; an empty table, empty queues and default groups meet the laws. -/
theorem resetHasColdValuesAndMeetsTheLaws : Obligations.ResetHasColdValuesAndMeetsTheLaws := by
  have feed : FeedHoldLaw State.reset := by constructor <;> decide
  have walker : WalkerLaw State.reset := ⟨fun r hr => (nomatch hr), fun r hr => (nomatch hr)⟩
  have holds : ∀ l, State.reset.table.hold l = .free := fun l => by cases l <;> rfl
  have buffers : BufferLaw State.reset := fun l q b h => by rw [holds] at h; exact nomatch h
  have waiting : WaitingLaw State.reset := fun l q h => by rw [holds] at h; exact nomatch h
  have plates : PlateLaw State.reset := by
    constructor <;> intro i <;> cases i <;> simp [State.reset, State.plate, PlateOutputs, PlateDemands.of]
  have queues : QueueLaw State.reset := ⟨fun l => by cases l <;> decide, by decide⟩
  have archive : ArchiveLaw State.reset := by
    have slots : ∀ i, (State.reset.slot i).state = .empty := fun i => by
      unfold State.slot
      match i with
      | 0 | 1 | 2 | 3 | 4 | 5 | 6 | 7 => rfl
      | i + 8 => rfl
    have engine : State.reset.archive.engine = .idle := rfl
    have panel : State.reset.panel = .idle := rfl
    refine ⟨rfl, fun i _ => ?_, fun i _ => ?_, ?_, ?_, ?_⟩ <;> simp [slots, engine, panel]
  have offsets : OffsetLaw State.reset := by
    refine ⟨fun r hr => (nomatch hr), ?_, fun i hi => (nomatch hi), fun x hx => (nomatch hx)⟩
    simp [State.reset, InSum]
  refine ⟨coldState_reset ▸ coldState_values _, rfl, rfl, rfl, rfl, rfl, rfl, feed, ?_, rfl, ?_, walker, rfl, buffers,
    reset_demandLaw, ?_, ?_, plates, ?_, ?_, ?_, queues, archive, offsets, waiting⟩
  · simp [ConverterLaw, State.reset]
  · simp [TableLaw, State.reset, Geometry.stations]
  · simp [DifferentialLaw, State.reset]
  · simp [DriveLaw, MotorBounds, State.reset]
  · simp [BacklogLaw, State.reset]
  · simp [CounterLaw, counters, Drives.counters, State.reset]
  · simp [ReleaseLaw, State.reset]

/-- Settles O5: both commands give `coldState`, the second with the line held. -/
theorem coldTakesEffect : Obligations.ColdTakesEffect := by
  intro s
  have slots : (coldState s).archive.slots = s.archive.slots.map fun x =>
      match x.state with
      | .writing => { x with state := .faulty }
      | .erasing => { x with state := .faulty }
      | _ => x := by
    refine List.map_congr_left fun x _ => ?_
    cases h : x.state <;> simp [coldSlot, h]
  exact ⟨⟨_, rfl, coldState_values s, rfl, rfl, rfl, rfl, rfl, slots⟩,
    ⟨_, rfl, coldState_values s, rfl, rfl, rfl, rfl, rfl, slots⟩⟩

/-- Settles O6: the guard that every command but the two resets has. -/
theorem resetLineHoldsTheBlock : Obligations.ResetLineHoldsTheBlock := by
  intro s c hs h1 h2
  rw [exec_asserted hs h1 h2]
  cases c <;> rfl

/-! ## WARM (R15) -/

theorem warmLink_link (s : State) (l : Link) :
    ({ s with links := warmLinks s.links } : State).link l = warmLink (s.link l) := by cases l <;> rfl

/-- A set of reasons with a wheel drive's reason in it asserts the line. -/
theorem governed_asserts {d : DepthCounter} {r : HoldReasons} (h : r.driveA = true) : (Governed d r).feedHold = true := by
  simp only [Governed, decide_eq_true_eq]
  rintro rfl
  cases h

/-- Settles O7: the WARM columns are `warmState`'s; the governor takes its changes as one update. -/
theorem warmKeepsTheRecord : Obligations.WarmKeepsTheRecord := by
  intro s hr hw hq
  have due : s.warmDue = true := by simp [State.warmDue, hw, hq]
  have taken : exec .warm s = .next (warmState s) := by
    change Host.Outcome.next (unlessReset s _) = _
    rw [unlessReset_released hr, if_pos due]
  have line : (Governed s.depth (warmReasons s.depth.reasons)).feedHold = true := governed_asserts rfl
  have governed : Governed s.depth (warmReasons s.depth.reasons)
      = { s.depth with reasons := warmReasons s.depth.reasons, feedHold := true } := by
    rw [← line]; rfl
  refine ⟨_, taken, ?_, fun i => by cases i <;> simp [warmState, State.plate, coldPlate, warmPlates], ?_, ?_, ?_,
    fun l => ?_⟩
  · apply state_ext <;> simp only [warmState, govern_resetLine, govern_clock, govern_panel, govern_geometry, govern_acq,
      govern_depth, govern_table, govern_align, govern_drives, govern_plates, govern_ret, govern_demand, govern_archive,
      govern_draws, govern_pending, governed]
    case h5 => rfl
    all_goals rfl
  · simp [warmState, raisedLinks, warmLinks]
  · simp [warmState, raisedLinks, warmLinks]
  · simp [warmState, raisedLinks, warmLinks]
  · cases l <;> cases h : s.depth.feedHold <;>
      simp [warmState, State.link, raisedLinks, warmLinks, warmLink, line, h]

/-! ## The arbiter (R166) -/

theorem waits_iff (x : LinkState) : x.waits = true ↔ x.rx ≠ [] ∧ x.replies.length < 4 := by
  simp [LinkState.waits]

/-- A link that the arbiter picks waits, so it has a head request. -/
theorem grantLink_waits {s : State} {l : Link} (h : grantLink s.links = some l) : (s.link l).waits = true := by
  unfold grantLink at h
  split at h
  · cases h
  · split at h
    · rename_i g; cases h; exact (Bool.and_eq_true_iff.mp g).1
    · split at h
      · rename_i g; cases h; exact (Bool.and_eq_true_iff.mp g).1
      · split at h
        · rename_i g; cases h; exact g
        · cases h

theorem grant_iff (s : State) (l : Link) :
    (∃ f, grant s = some (l, f)) ↔ grantLink s.links = some l := by
  constructor
  · rintro ⟨f, h⟩; exact (grant_some h).1
  · intro h
    obtain ⟨f, rest, hf⟩ := List.exists_cons_of_ne_nil ((waits_iff _).mp (grantLink_waits h)).1
    exact ⟨f, by simp [grant, h, hf]⟩

/-- Settles O20: the arbiter's pick by the three links' waiting, the turn and the count. -/
theorem arbiterGrantsByTurn : Obligations.ArbiterGrantsByTurn := by
  intro s
  refine ⟨fun h => by simp [grant, grantLink, h], fun hr => ?_⟩
  intro waits recordTurn
  have hc : waits .cab ↔ s.links.cab.waits = true := (waits_iff _).symm
  have hp : waits .plant ↔ s.links.plant.waits = true := (waits_iff _).symm
  have hd : waits .record ↔ s.links.record.waits = true := (waits_iff _).symm
  have turn : s.links.turn = .plant ↔ ¬s.links.turn = .cab := by cases s.links.turn <;> simp
  refine ⟨fun l f h => ⟨(grant_some h).2, (waits_iff _).mp (grantLink_waits (grant_some h).1)⟩, ?_, ?_, ?_, ?_⟩
  · simp only [grant_iff]
    constructor
    · rintro ⟨l, h⟩; exact ⟨l, (waits_iff _).mp (grantLink_waits h)⟩
    · rintro ⟨l, h⟩
      have some_waits : s.links.cab.waits = true ∨ s.links.plant.waits = true ∨ s.links.record.waits = true := by
        cases l
        · exact .inl (hc.mp h)
        · exact .inr (.inl (hp.mp h))
        · exact .inr (.inr (hd.mp h))
      simp only [grantLink, hr]
      split
      · contradiction
      · split
        · exact ⟨_, rfl⟩
        · split
          · exact ⟨_, rfl⟩
          · split
            · exact ⟨_, rfl⟩
            · simp_all
  all_goals
    simp only [grant_iff, recordTurn, hc, hp, hd, grantLink, hr, turn]
    generalize s.links.cab.waits = a, s.links.plant.waits = b, s.links.record.waits = c,
      s.links.levelZeroGrants = n
    by_cases g : 4 ≤ n <;> by_cases u : s.links.turn = .cab <;> cases a <;> cases b <;> cases c <;> simp [g, u]

/-! ## Refusals by link, length and kind (R167) -/

/-- A request of one length with another length is refused BAD_LENGTH by its row. -/
theorem rowRule_badLength {c : Instr} {n : Nat} (h : requestLength c = some n) (l : Link) {p : List Byte}
    (hp : p.length ≠ n) (s : State) : rowRule c l p s = (s, refusal .badLength) := by
  have sized (m : Nat) (body : Link → List Byte → State → State × Answer) (e : m = n) :
      payloadOf m body l p s = (s, refusal .badLength) := if_neg (e ▸ hp)
  have empty (body : Link → State → State × Answer) (e : 0 = n) : emptyPayload body l p s = (s, refusal .badLength) :=
    emptyPayload_of_ne (fun q => hp (by rw [q, ← e]; rfl)) body l s
  cases c <;> simp only [requestLength, Option.some.injEq, reduceCtorEq] at h
  all_goals first | exact sized _ _ h | exact empty _ h

/-- Every kind of the request table is that of a row. -/
theorem requestKinds_rows : ∀ k ∈ requestKinds, ∃ c acc, requestRow c = some (k, acc) := by
  have named : ∀ k ∈ requestKinds, (requestRow (requestOf k)).map (·.1) = some k := by decide
  intro k hk
  obtain ⟨⟨k', acc⟩, h, rfl⟩ := Option.map_eq_some_iff.mp (named k hk)
  exact ⟨_, acc, h⟩

/-- Settles O21: the request table judges the link first, the length next, and UNKNOWN_REQUEST takes the other kinds. -/
theorem wrongLinkLengthAndKindAreRefused : Obligations.WrongLinkLengthAndKindAreRefused := by
  refine ⟨fun c kind acc s l f hc h => ⟨fun r => refuses_of_barred (exec_row hc s) h, fun n hn hb hp => ?_⟩,
    fun s l f h hk => ?_⟩
  · refine serves_of_body (exec_row hc s) h hb ?_
    rw [rowRule_badLength hn l hp, ← takeHead_eq]
    rfl
  · have unnamed : f.kind ∉ requestKinds := fun m => by
      obtain ⟨c, acc, hc⟩ := requestKinds_rows _ m
      exact hk c _ acc hc rfl
    have e : exec .unknownRequest s = .next (buildReply l f (refusal .unknown) (takeHead l s)) := by
      change Host.Outcome.next (unlessReset s _) = _
      rw [unlessReset_released h.1, unknownRequest, h.2.1]
      exact congrArg _ (if_neg unnamed)
    obtain ⟨raised, answered⟩ := buildReply_answered (refusal .unknown) h (linksKept_refl rfl)
    exact ⟨_, e, by rw [buildReply_eq, takeHead_eq], raised, answered⟩

/-! ## Events that are not due -/

theorem exec_of_not_due {c : Instr} {s : State} (hr : requestRow c = none) (h1 : c ≠ .cold)
    (h2 : c ≠ .resetLineAssert) (h : eventTime s c = none) : exec c s = .next s := by
  cases hs : s.resetLine with
  | false => rw [exec_event hr h1 h2 hs, h]; rfl
  | true =>
    rw [exec_asserted hs h2 h1]
    cases c <;> first | rfl | cases h

theorem request_not_granted {kind : Byte} {acc : Access} {body : Link → List Byte → State → State × Answer} {s : State}
    (h : ∀ l f, grant s = some (l, f) → f.kind ≠ kind) : request kind acc body s = s := by
  rcases request_cases kind acc body s with e | ⟨l, f, ⟨-, hg, hk⟩, -⟩
  · exact e
  · exact absurd hk (h l f hg)

theorem programmingDue_none {e : Engine} (h : ∀ i p im due, e ≠ .programming i p im due) : e.programmingDue = none := by
  cases e <;> first | rfl | exact absurd rfl (h _ _ _ _)

theorem erasing_none {e : Engine} (h : ∀ i due, e ≠ .erase i due) (g : ∀ i rest due, e ≠ .wipe i rest due) :
    e.erasing = none := by
  cases e <;> first | rfl | exact absurd rfl (h _ _) | exact absurd rfl (g _ _ _)

/-- Settles O22: rows by the grant, and events by their times. -/
theorem eventsThatAreNotDueHaveNoEffect : Obligations.EventsThatAreNotDueHaveNoEffect := by
  intro s
  have idle (c : Instr) (hr : requestRow c = none) (h1 : c ≠ .cold) (h2 : c ≠ .resetLineAssert)
      (h : eventTime s c = none) : exec c s = .next s := exec_of_not_due hr h1 h2 h
  refine ⟨fun c kind acc hc hg => by rw [exec_row hc, request_not_granted hg], fun h => ?warm, fun l h => ?sent,
    fun l => idle (.bytePauseTimeout l) rfl nofun nofun, fun l => idle (.silenceExpiry l) rfl nofun nofun,
    fun v h => idle (.pageProgramCompletion v) rfl nofun nofun (programmingDue_none h),
    fun v h g => idle (.eraseCompletion v) rfl nofun nofun (erasing_none h g),
    idle .scanTimerExpiry rfl nofun nofun, fun raw => idle (.conversionCompletion raw) rfl nofun nofun,
    fun h => idle .restitchStepCompletion rfl nofun nofun (by simp [eventTime, h]),
    fun d => idle (.pickupTimeout d) rfl nofun nofun, fun w => idle (.stallConfirmExpiry w) rfl nofun nofun,
    fun w => idle (.reverseTimerExpiry w) rfl nofun nofun, fun i => idle (.travelTimerExpiry i) rfl nofun nofun,
    idle .reportStaleExpiry rfl nofun nofun, idle .blockageConfirmExpiry rfl nofun nofun,
    idle .recoveryTimerExpiry rfl nofun nofun, idle .wheelDemandExpiry rfl nofun nofun⟩
  case warm =>
    refine idle _ rfl nofun nofun (if_neg ?_)
    rcases h with h | h <;> simp [State.warmDue, h]
  case sent =>
    change Host.Outcome.next (unlessReset s (sendReply l)) = _
    simp only [unlessReset, sendReply, h]
    split <;> rfl

end Sys2Proof.Machine
end

section
/-! The feed governor's law (R47, R48) and the converter's (R33) over every step. `reasonsOf` computes the set that a state
asks for; each operation that tells the governor changes the set as it changes the condition (`feedHeld_update`). -/

namespace Sys2Proof.Machine

open Sys2Proof.Safety

/-! ## The law as one equation -/

/-- The reasons whose conditions hold in a state (R47). -/
def reasonsOf (s : State) : HoldReasons where
  panel := decide (s.panel ≠ .active)
  reference := decide (s.depth.ref = .unreferenced)
  ret := holdsReturn s.ret.state
  driveA := s.drives.a.holdsFeed
  driveB := s.drives.b.holdsFeed
  wheel := s.demand.expired
  final := s.depth.final
  acqOff := decide (s.acq.state = .off)
  acqFault := s.acq.fault
  overfeed := s.depth.overfeed

/-- The governor holds exactly the reasons that the state asks for, and the line follows them. -/
def FeedHeld (s : State) : Prop := s.depth = Governed s.depth (reasonsOf s)

theorem holdsFeed_iff (d : WheelDrive) :
    d.holdsFeed = true ↔ ¬(d.state = .running ∧ d.dirStatus = .forward) := by
  simp only [WheelDrive.holdsFeed, Bool.not_eq_true', ← Bool.not_eq_true, Bool.and_eq_true, decide_eq_true_eq]

theorem FeedHeld.reasons {s : State} (h : FeedHeld s) : s.depth.reasons = reasonsOf s := congrArg (·.reasons) h

theorem feedHoldLaw_iff (s : State) : FeedHoldLaw s ↔ FeedHeld s := by
  constructor
  · rintro ⟨h1, h2, h3, h4, h5, h6, h7, h8, h9, h10, line⟩
    have e : s.depth.reasons = reasonsOf s := by
      generalize s.depth.reasons = r at *
      obtain ⟨_, _, _, _, _, _, _, _, _, _⟩ := r
      have same {x y : Bool} {p : Prop} (hx : x = true ↔ p) (hy : y = true ↔ p) : x = y :=
        Bool.eq_iff_iff.mpr (hx.trans hy.symm)
      simp only [reasonsOf, HoldReasons.mk.injEq]
      exact ⟨same h1 decide_eq_true_iff, same h2 decide_eq_true_iff, same h3 decide_eq_true_iff,
        same h4 (holdsFeed_iff _), same h5 (holdsFeed_iff _), same h6 .rfl, same h7 .rfl, same h8 decide_eq_true_iff,
        same h9 .rfl, same h10 .rfl⟩
    have l : s.depth.feedHold = (Governed s.depth s.depth.reasons).feedHold := by
      rw [Bool.eq_iff_iff, line]; simp [Governed]
    unfold FeedHeld
    rw [← e]
    conv_lhs => rw [show s.depth = { s.depth with feedHold := s.depth.feedHold } from rfl, l]
    rfl
  · intro h
    have e := h.reasons
    have l : s.depth.feedHold = (Governed s.depth s.depth.reasons).feedHold := by
      rw [e]; exact congrArg (·.feedHold) h
    constructor <;> first | (rw [e]; simp [reasonsOf, holdsFeed_iff, holdsReturn]; done) | (rw [l]; simp [Governed])

/-- No condition looks at the governor's set or its line. -/
theorem reasonsOf_govern (g : HoldReasons → HoldReasons) (u : State) : reasonsOf (govern g u) = reasonsOf u := by
  simp [reasonsOf, Governed]

/-- Telling the governor a change that makes its set the one asked for. -/
theorem feedHeld_govern {g : HoldReasons → HoldReasons} {u : State} (e : g u.depth.reasons = reasonsOf u) :
    FeedHeld (govern g u) := by
  unfold FeedHeld
  rw [reasonsOf_govern, govern_depth, e]
  rfl

/-- The conditions see only these values of a state. -/
theorem reasonsOf_congr {s t : State} (panel : t.panel = s.panel) (ref : t.depth.ref = s.depth.ref)
    (ret : t.ret.state = s.ret.state) (a : t.drives.a.holdsFeed = s.drives.a.holdsFeed)
    (b : t.drives.b.holdsFeed = s.drives.b.holdsFeed) (expired : t.demand.expired = s.demand.expired)
    (final : t.depth.final = s.depth.final) (acq : t.acq.state = .off ↔ s.acq.state = .off)
    (fault : t.acq.fault = s.acq.fault) (overfeed : t.depth.overfeed = s.depth.overfeed) :
    reasonsOf t = reasonsOf s := by
  simp only [reasonsOf, panel, ref, ret, a, b, expired, final, acq, fault, overfeed]

/-- The usual shape: a condition changes, and the governor is told the same change of its set. -/
theorem feedHeld_update {g : HoldReasons → HoldReasons} {s u : State} (h : FeedHeld s)
    (hr : u.depth.reasons = s.depth.reasons) (e : g (reasonsOf s) = reasonsOf u) : FeedHeld (govern g u) :=
  feedHeld_govern (by rw [hr, h.reasons, e])

/-- A change that no condition sees. -/
theorem feedHeld_congr {s t : State} (h : FeedHeld s) (hr : t.depth.reasons = s.depth.reasons)
    (hl : t.depth.feedHold = s.depth.feedHold) (e : reasonsOf t = reasonsOf s) : FeedHeld t := by
  have l : s.depth.feedHold = (Governed s.depth (reasonsOf s)).feedHold := congrArg (·.feedHold) h
  unfold FeedHeld
  rw [e]
  calc t.depth = { t.depth with reasons := t.depth.reasons, feedHold := t.depth.feedHold } := rfl
    _ = Governed t.depth (reasonsOf s) := by rw [hr, hl, h.reasons, l]; rfl

/-- A change outside the parts that the conditions speak of. -/
theorem feedHeld_touches {ps : List Part} {s t : State} (h : FeedHeld s) (ht : Touches ps s t)
    (hp : ps ⊆ [.geometry, .table, .align, .plates, .archive]) : FeedHeld t := by
  obtain ⟨-, panel, -, acq, depth, -, -, drives, -, ret, demand, -, -⟩ := touches_iff.mp (touches_mono ht hp)
  have hd := depth (by decide)
  have ha := acq (by decide)
  have hw := drives (by decide)
  exact feedHeld_congr h (by rw [hd]) (by rw [hd]) (reasonsOf_congr (panel (by decide)) (by rw [hd])
    (by rw [ret (by decide)]) (by rw [hw]) (by rw [hw]) (by rw [demand (by decide)]) (by rw [hd]) (by rw [ha])
    (by rw [ha]) (by rw [hd]))

/-! ## The operations that tell the governor -/

theorem setPanel_feedHeld {s : State} (h : FeedHeld s) (p : PanelState) : FeedHeld (setPanel p s) :=
  feedHeld_update h rfl rfl

theorem setReference_feedHeld {s : State} (h : FeedHeld s) (ref : RefState) : FeedHeld (setReference ref s) :=
  feedHeld_update h rfl rfl

theorem setFinal_feedHeld {s : State} (h : FeedHeld s) (b : Bool) : FeedHeld (setFinal b s) :=
  feedHeld_update h rfl rfl

theorem setExpired_feedHeld {s : State} (h : FeedHeld s) (b : Bool) : FeedHeld (setExpired b s) :=
  feedHeld_update h rfl rfl

theorem setAcqFault_feedHeld {s : State} (h : FeedHeld s) (b : Bool) : FeedHeld (setAcqFault b s) :=
  feedHeld_update h rfl rfl

theorem toOff_feedHeld {s : State} (h : FeedHeld s) : FeedHeld (toOff s) := feedHeld_update h rfl rfl

theorem warmState_feedHeld {s : State} (h : FeedHeld s) : FeedHeld (warmState s) := feedHeld_update h rfl rfl

theorem raise_feedHeld {s : State} (h : FeedHeld s) (f : Flag) : FeedHeld (raise f s) := h

theorem raiseIf_feedHeld {s : State} (h : FeedHeld s) (c : Bool) (f : Flag) : FeedHeld (raiseIf c f s) := by
  cases c <;> exact h

theorem enterReturn_feedHeld {s : State} (h : FeedHeld s) (st : ReturnState) : FeedHeld (enterReturn st s) := by
  unfold enterReturn
  split
  · exact h
  · exact feedHeld_update h rfl (by simp only [reasonsOf, holdsFeed_eq]; rfl)

theorem publishWheel_feedHeld {s : State} (h : FeedHeld s) (w : WheelId) (d : WheelDrive) :
    FeedHeld (publishWheel w d s) := by
  unfold publishWheel
  cases w <;> exact feedHeld_update h rfl rfl

theorem publishPump_feedHeld {s : State} (h : FeedHeld s) (d : PumpDrive) : FeedHeld (publishPump d s) := by
  have placed : FeedHeld { s with drives := { s.drives with p := d } } := h
  unfold publishPump pumpStarted pumpStopped
  dsimp only
  split
  · exact placed
  · split
    · split
      · exact enterReturn_feedHeld placed _
      · exact placed
    · exact enterReturn_feedHeld placed _

/-- The governor told two changes, one after the other. -/
theorem feedHeld_govern_twice {f g : HoldReasons → HoldReasons} {u : State}
    (e : g (f u.depth.reasons) = reasonsOf u) : FeedHeld (govern g (govern f u)) :=
  feedHeld_govern (by rw [reasonsOf_govern, govern_depth]; exact e)

/-- The two reasons that the opening of a panel ends. -/
def openRemoval (r : HoldReasons) : HoldReasons := { r with panel := false, final := false }

theorem openGovernor_same (s : State) : openGovernor false s = govern openRemoval s := rfl

theorem openGovernor_changed (s : State) : openGovernor true s
    = if s.choice then govern (fun r => { r with reference := true }) (govern openRemoval s.drawn)
      else govern openRemoval (govern (fun r => { r with reference := true }) s.drawn) := rfl

/-- The governor told the opening of a panel, in either order. -/
theorem openGovernor_feedHeld {s : State} (b : Bool) (e : { openRemoval s.depth.reasons with
    reference := b || s.depth.reasons.reference } = reasonsOf s) : FeedHeld (openGovernor b s) := by
  cases b with
  | false => rw [openGovernor_same]; exact feedHeld_govern e
  | true =>
    rw [openGovernor_changed]
    split
    · exact feedHeld_govern_twice (u := s.drawn) e
    · exact feedHeld_govern_twice (u := s.drawn) e

theorem openDepth_spec (g : Geometry) (b : Bool) (d : DepthCounter) :
    (openDepth g b d).reasons = d.reasons ∧ (openDepth g b d).overfeed = d.overfeed
    ∧ (openDepth g b d).final = false
    ∧ decide ((openDepth g b d).ref = .unreferenced) = (b || decide (d.ref = .unreferenced)) := by
  unfold openDepth rescaled
  dsimp only
  repeat' split
  all_goals simp_all

theorem openPanel_feedHeld {s : State} (h : FeedHeld s) (g : Geometry) : FeedHeld (openPanel g s) := by
  obtain ⟨reasons, overfeed, final, ref⟩ := openDepth_spec g (g.encoderStep != s.geometry.encoderStep) s.depth
  unfold openPanel
  dsimp only
  refine openGovernor_feedHeld _ ?_
  simp only [openRemoval, reasonsOf, reasons, overfeed, final, ref, h.reasons]
  rfl

/-! ## The rules of the request rows -/

/-- A body that keeps a property keeps it behind its length check. -/
theorem payloadOf_keeps {P : State → Prop} {n : Nat} {body : Link → List Byte → State → State × Answer} {l : Link}
    {p : List Byte} {s : State} (h : P s) (hb : P (body l p s).1) : P (payloadOf n body l p s).1 := by
  unfold payloadOf; split <;> assumption

theorem emptyPayload_keeps {P : State → Prop} {body : Link → State → State × Answer} {l : Link} {p : List Byte}
    {s : State} (h : P s) (hb : P (body l s).1) : P (emptyPayload body l p s).1 := by
  unfold emptyPayload; split <;> assumption

theorem writeGroup_keeps {P : State → Prop} {n : Nat} {ok : Entry → Bool} {range : Nat → Int × Int}
    {accept : List Entry → State → State} {p : List Byte} {s : State} (h : P s) (ha : ∀ es, P (accept es s)) :
    P (writeGroup n ok range accept p s).1 := by
  unfold writeGroup
  split
  · exact h
  · exact ha _

theorem closePanelBody_feedHeld {s : State} (h : FeedHeld s) (l : Link) : FeedHeld (closePanelBody l s).1 := by
  unfold closePanelBody
  split
  · exact h
  · split
    · exact h
    · split
      · exact h
      · exact feedHeld_touches (setPanel_feedHeld (s := (s.setSlot _ _).setEngine _) h _) (endWalkStage_touches _)
          (by decide)

theorem setDepthBody_feedHeld {s : State} (h : FeedHeld s) (l : Link) (p : List Byte) :
    FeedHeld (setDepthBody l p s).1 := by
  unfold setDepthBody
  dsimp only
  split
  · exact h
  · have referenced (c w : Int) : FeedHeld (setReference .referenced
        { s with depth := { s.depth with count := c, windowStart := w } }) := feedHeld_update h rfl rfl
    split
    · exact referenced _ _
    · exact feedHeld_congr (referenced _ _) rfl rfl rfl

theorem leaveOff_feedHeld {s : State} (h : FeedHeld s) : FeedHeld (leaveOff s) := by
  unfold leaveOff
  dsimp only
  split <;> exact feedHeld_update h rfl rfl

theorem acceptAcquisition_feedHeld {s : State} (h : FeedHeld s) (q : AcqRequest) :
    FeedHeld (acceptAcquisition q s) := by
  have taken (b : Bool) (f : Acquisition → Acquisition) (hs : (f s.acq).state = s.acq.state)
      (hf : (f s.acq).fault = s.acq.fault) : FeedHeld (if b then reloadScanTimer (s.setAcq f) else s.setAcq f) := by
    have e : reasonsOf (s.setAcq f) = reasonsOf s :=
      reasonsOf_congr rfl rfl rfl rfl rfl rfl rfl (by rw [State.setAcq, hs]) hf rfl
    split <;> exact feedHeld_congr h rfl rfl e
  have pending := taken q.restart (fun a => { a with
    pendingList := q.list, pendingMode := q.mode, newPeriod := clamp 10 1000 q.period }) rfl rfl
  unfold acceptAcquisition
  dsimp only
  split
  · exact toOff_feedHeld (s := adopt _) pending
  · exact leaveOff_feedHeld pending
  · exact leaveOff_feedHeld pending
  · exact pending

theorem extendDepthBody_feedHeld {s : State} (h : FeedHeld s) (l : Link) (p : List Byte) :
    FeedHeld (extendDepthBody l p s).1 := by
  unfold extendDepthBody
  dsimp only
  split
  · exact h
  · split
    · exact h
    · unfold extendDesign
      dsimp only
      split
      · exact feedHeld_update h rfl rfl
      · exact h

theorem takeReport_feedHeld {s : State} (h : FeedHeld s) (r : Report) : FeedHeld (takeReport r s) := by
  have reported : FeedHeld (recomputeCapacity (raiseIf (s.geometry.groundDensity ≤ r.supplyDensity) .sensorFault
      { s with ret := { s.ret with
        report := some r, fresh := true, staleTimer := some (s.inMs s.demand.pump.staleTime) } })) :=
    feedHeld_congr h (by simp) (by simp) (by simp only [reasonsOf, recomputeCapacity, raiseIf_ret, raiseIf_depth,
      raiseIf_panel, raiseIf_drives, raiseIf_demand, raiseIf_acq])
  exact feedHeld_congr (enterReturn_feedHeld reported _) rfl rfl rfl

theorem renewWheel_feedHeld {s : State} (h : FeedHeld s) : FeedHeld (renewWheel s) :=
  setExpired_feedHeld (s := { s with demand := { s.demand with life := some (s.inMs 2000) } }) h false

theorem rowRule_feedHeld (c : Instr) (l : Link) (p : List Byte) {s : State} (h : FeedHeld s)
    (hc : requestRow c ≠ none) : FeedHeld (rowRule c l p s).1 := by
  cases c with
  | openPanel =>
    refine payloadOf_keeps h ?_
    unfold openPanelBody
    split
    · exact h
    · dsimp only
      split
      · exact h
      · exact openPanel_feedHeld h _
  | closePanel => exact emptyPayload_keeps h (closePanelBody_feedHeld h l)
  | abandonPanel =>
    refine emptyPayload_keeps h ?_
    unfold abandonPanelBody
    split <;> first | exact h | exact feedHeld_update h rfl rfl
  | extendDepth => exact payloadOf_keeps h (extendDepthBody_feedHeld h l p)
  | setDepth => exact payloadOf_keeps h (setDepthBody_feedHeld h l p)
  | setWheel => exact writeGroup_keeps h fun es => renewWheel_feedHeld (feedHeld_congr h rfl rfl rfl)
  | keepWheel => exact emptyPayload_keeps h (renewWheel_feedHeld h)
  | setFeed => exact writeGroup_keeps h fun es => feedHeld_congr h rfl rfl rfl
  | setTuning => exact writeGroup_keeps h fun es => feedHeld_congr h rfl rfl rfl
  | setPump => exact writeGroup_keeps h fun es => feedHeld_congr h rfl rfl rfl
  | setAcquisition =>
    simp only [rowRule, setAcquisitionBody]
    split
    · exact h
    · exact acceptAcquisition_feedHeld h _
  | restartDrive =>
    refine payloadOf_keeps h ?_
    unfold restartDriveBody
    split
    · exact h
    · rename_i w _
      split
      · exact publishWheel_feedHeld h w (withDirStatus s.demand.wheel
          { s.wheel w with state := .stopped, stalls := [], confirm := none })
      · exact h
  | takePump =>
    refine emptyPayload_keeps h ?_
    unfold takePumpBody
    repeat' split
    all_goals exact feedHeld_congr h rfl rfl rfl
  | reclaimPump =>
    refine emptyPayload_keeps h ?_
    unfold reclaimPumpBody
    repeat' split
    all_goals exact feedHeld_congr h rfl rfl rfl
  | releasePump =>
    refine emptyPayload_keeps h ?_
    unfold releasePumpBody
    split <;> exact feedHeld_congr h rfl rfl rfl
  | reportReturn => exact payloadOf_keeps h (takeReport_feedHeld h _)
  | clearTallies =>
    refine emptyPayload_keeps h ?_
    unfold clearTalliesBody
    split <;> exact feedHeld_congr h rfl rfl rfl
  | _ => first | exact absurd rfl hc | exact feedHeld_touches h (rowRule_touches _ l p s) (by decide)

/-! ## The rules of the events -/

theorem wheelScan_feedHeld {s : State} (h : FeedHeld s) (w : WheelId) (r : ScanRecord) : FeedHeld (wheelScan w r s) := by
  unfold wheelScan
  split
  · refine raiseIf_feedHeld ?_ _ _
    cases w <;> exact feedHeld_congr h rfl rfl rfl
  · have kept : (stopUnwatched (s.wheel w)).holdsFeed = (s.wheel w).holdsFeed := by
      unfold stopUnwatched; split <;> rfl
    cases w with
    | a => exact feedHeld_congr h rfl rfl (reasonsOf_congr rfl rfl rfl kept rfl rfl rfl .rfl rfl rfl)
    | b => exact feedHeld_congr h rfl rfl (reasonsOf_congr rfl rfl rfl rfl kept rfl rfl .rfl rfl rfl)
  · exact h

theorem returnScan_feedHeld {s : State} (h : FeedHeld s) (r : ScanRecord) : FeedHeld (returnScan r s) := by
  unfold returnScan
  split
  · dsimp only
    split <;> exact feedHeld_congr h rfl rfl rfl
  · exact h

theorem consumers_feedHeld {s : State} (h : FeedHeld s) (r : ScanRecord) : FeedHeld (consumers r s) := by
  have stations : FeedHeld (stationScan r s.drawn) :=
    feedHeld_touches (s := s.drawn) h (stationScan_touches r s.drawn) (by decide)
  have drives : FeedHeld (driveScan r (stationScan r s.drawn)) :=
    wheelScan_feedHeld (wheelScan_feedHeld stations .a r) .b r
  have taken := returnScan_feedHeld drives r
  unfold consumers
  dsimp only
  split
  · exact feedHeld_touches (feedHeld_touches taken (alignScan_touches r _) (by decide)) (plateScan_touches r _) (by decide)
  · exact feedHeld_touches (feedHeld_touches taken (plateScan_touches r _) (by decide)) (alignScan_touches r _) (by decide)

theorem judgeScan_feedHeld {s : State} (h : FeedHeld s) (v : Bool) : FeedHeld (judgeScan v s) := by
  unfold judgeScan
  split
  · exact feedHeld_update h rfl rfl
  · split
    · exact h
    · dsimp only
      split
      · exact feedHeld_update h rfl rfl
      · exact feedHeld_congr h rfl rfl rfl

/-- A scan or a settling scan is in flight. -/
def InFlight (s : State) : Prop := s.acq.state = .settling ∨ s.acq.state = .scanning

/-- The unit's state changes from one that is not OFF to another that is not OFF. -/
theorem feedHeld_of_acq {s : State} (h : FeedHeld s) (f : Acquisition → Acquisition) (h1 : s.acq.state ≠ .off)
    (h2 : (f s.acq).state ≠ .off) (hf : (f s.acq).fault = s.acq.fault) : FeedHeld (s.setAcq f) :=
  feedHeld_congr h rfl rfl (reasonsOf_congr rfl rfl rfl rfl rfl rfl rfl (iff_of_false h2 h1) hf rfl)

theorem afterScan_feedHeld {s : State} (h : FeedHeld s) (hf : InFlight s) : FeedHeld (afterScan s) := by
  have on : s.acq.state ≠ .off := by rcases hf with e | e <;> simp [e]
  unfold afterScan
  split
  · exact toOff_feedHeld (s := adopt s) h
  · split
    · dsimp only
      split
      · exact feedHeld_of_acq (s := loadScanTimer (adopt s)) h _ on (by simp) rfl
      · exact feedHeld_of_acq (s := adopt s) h _ on (by simp) rfl
      · exact toOff_feedHeld (s := adopt s) h
    · exact feedHeld_of_acq h _ on (by simp) rfl
    · exact feedHeld_of_acq h _ on (by simp) rfl

@[simp] theorem judgeScan_state (v : Bool) (s : State) : (judgeScan v s).acq.state = s.acq.state := by
  unfold judgeScan
  split
  · simp [setAcqFault, State.setAcq]
  · split
    · rfl
    · dsimp only
      split <;> simp [setAcqFault, State.setAcq]

theorem consumers_acq (r : ScanRecord) (s : State) : (consumers r s).acq = s.acq :=
  consumers_touches r s .acq (by decide)

theorem publishScan_state (s : State) : (publishScan s).acq.state = s.acq.state := by
  unfold publishScan
  dsimp only
  rw [consumers_acq]
  simp [State.setAcq]

theorem publishScan_feedHeld {s : State} (h : FeedHeld s) : FeedHeld (publishScan s) := by
  unfold publishScan
  dsimp only
  have judged := judgeScan_feedHeld h (validRf ((scanEntries s.acq.results)[Channel.rf.code]?).join)
  generalize judgeScan (validRf ((scanEntries s.acq.results)[Channel.rf.code]?).join) s = u at judged ⊢
  refine consumers_feedHeld (s := u.setAcq _) ?_ _
  exact feedHeld_congr judged rfl rfl rfl

theorem scanCompletion_feedHeld {s : State} (h : FeedHeld s) (hf : InFlight s) : FeedHeld (scanCompletion s) := by
  unfold scanCompletion
  split
  · exact afterScan_feedHeld h hf
  · exact afterScan_feedHeld (publishScan_feedHeld h) (by unfold InFlight; rwa [publishScan_state])

theorem converted_state (raw : Int) (c : Channel) (s : State) : (converted raw c s).acq.state = s.acq.state := by
  unfold converted zeroChecked zeroCheck
  dsimp only
  repeat' split
  all_goals rfl

theorem converted_feedHeld {s : State} (h : FeedHeld s) (raw : Int) (c : Channel) : FeedHeld (converted raw c s) := by
  unfold converted zeroChecked zeroCheck
  dsimp only
  repeat' split
  all_goals exact feedHeld_congr h rfl rfl rfl

theorem conversionDone_feedHeld {s : State} (h : FeedHeld s) (hf : InFlight s) (raw : Int) :
    FeedHeld (conversionDone raw s) := by
  cases hc : s.acq.activeList[s.acq.results.length]? with
  | none => rw [conversionDone_of_end hc]; exact scanCompletion_feedHeld h hf
  | some c =>
    have hd := converted_feedHeld h raw c
    rw [conversionDone_of_entry hc]
    split
    · exact hd
    · exact scanCompletion_feedHeld hd (by unfold InFlight; rwa [converted_state])

theorem scanExpiry_feedHeld {s : State} (h : FeedHeld s) : FeedHeld (scanExpiry s) := by
  have reloaded : FeedHeld (reloadScanTimer s) := feedHeld_congr h rfl rfl rfl
  unfold scanExpiry
  dsimp only
  split
  · rename_i hw
    have on : s.acq.state ≠ .off := fun e => by
      change s.acq.state = _ at hw; rw [e] at hw; cases hw
    unfold startAtExpiry
    dsimp only
    split
    · exact feedHeld_of_acq (s := adopt (reloadScanTimer s)) reloaded _ on (by simp) rfl
    · exact feedHeld_of_acq (s := stopScanTimer (adopt (reloadScanTimer s))) reloaded _ on (by simp) rfl
    · exact toOff_feedHeld (s := adopt (reloadScanTimer s)) reloaded
  all_goals exact reloaded

theorem illegalTransition_feedHeld {s : State} (h : FeedHeld s) : FeedHeld (illegalTransition s) := by
  unfold illegalTransition
  dsimp only
  split
  · exact setReference_feedHeld (s := raise .depthFault s) h _
  · exact h

theorem judgeCrossing_feedHeld {s : State} (h : FeedHeld s) (b a : Int) : FeedHeld (judgeCrossing b a s) := by
  unfold judgeCrossing
  dsimp only
  split
  · have crossed : FeedHeld (crossing s.depth.floor s.depth.ref
        { s with depth := { s.depth with floor := s.depth.floor + 1 } }) :=
      feedHeld_touches (s := { s with depth := { s.depth with floor := s.depth.floor + 1 } })
        (feedHeld_congr h rfl rfl rfl) (crossing_touches _ _ _) (by decide)
    split
    · exact setFinal_feedHeld (s := raise .finalDepth _) crossed _
    · exact crossed
  · exact h

theorem countStep_feedHeld {s : State} (h : FeedHeld s) (step : Int) : FeedHeld (countStep step s) := by
  have counted : FeedHeld { s with depth := { s.depth with count := s.depth.count + step } } :=
    feedHeld_congr h rfl rfl rfl
  unfold countStep
  dsimp only
  split
  · split
    · exact feedHeld_touches (judgeCrossing_feedHeld counted _ _) (judgeSettlement_touches _ _ _) (by decide)
    · unfold judgeRearm
      dsimp only
      split
      · exact feedHeld_congr counted rfl rfl rfl
      · exact counted
  · exact illegalTransition_feedHeld h

theorem encoderChange_feedHeld {s : State} (h : FeedHeld s) (a b : Bool) : FeedHeld (encoderChange a b s) := by
  have lined : FeedHeld (setLines a b s) := feedHeld_congr h rfl rfl rfl
  unfold encoderChange
  dsimp only
  split
  · exact lined
  · exact countStep_feedHeld lined _
  · exact countStep_feedHeld lined _
  · exact illegalTransition_feedHeld lined

theorem windowCompletion_feedHeld {s : State} (h : FeedHeld s) (d w : Int) : FeedHeld (windowCompletion d w s) := by
  unfold windowCompletion
  dsimp only
  have balanced (b : Int) : FeedHeld (recomputeCapacity { s with ret := { s.ret with backlog := b } }) :=
    feedHeld_congr h rfl rfl rfl
  exact feedHeld_congr (enterReturn_feedHeld (balanced _) _) rfl rfl rfl

theorem feedWindow_feedHeld {s : State} (h : FeedHeld s) : FeedHeld (feedWindow s) := by
  unfold feedWindow
  dsimp only
  have judged (d : DepthCounter) (reasons : d.reasons = s.depth.reasons) (ref : d.ref = s.depth.ref)
      (final : d.final = s.depth.final) :
      FeedHeld (govern (fun r => { r with overfeed := d.overfeed }) { s with depth := d }) := by
    refine feedHeld_update h reasons ?_
    simp only [reasonsOf, ref, final]
  apply windowCompletion_feedHeld
  apply judged <;> rfl

theorem setMotor_feedHeld {s : State} (h : FeedHeld s) (d : DriveId) (m : Motor) : FeedHeld (s.setMotor d m) := by
  cases d <;> exact feedHeld_congr h rfl rfl rfl



theorem loadedTick_feedHeld {s : State} (h : FeedHeld s) (w : WheelId) : FeedHeld (loadedTick w s) := by
  unfold loadedTick
  dsimp only
  split
  · refine raiseIf_feedHeld ?_ _ _
    cases w <;> exact feedHeld_congr h rfl rfl rfl
  · exact h

theorem closeWriteEnd_feedHeld {s : State} (h : FeedHeld s) : FeedHeld (closeWriteEnd s) := by
  have closed : FeedHeld (setPanel .closed (raise .archiveDone (s.setEngine .idle))) :=
    setPanel_feedHeld (s := raise .archiveDone (s.setEngine .idle)) h .closed
  exact feedHeld_touches closed (reviewHolds_touches _) (by decide)

theorem pageDone_feedHeld {s : State} (h : FeedHeld s) (v : Bool) : FeedHeld (pageDone v s) := by
  unfold pageDone
  split
  · dsimp only
    split
    · split
      · exact h
      · exact closeWriteEnd_feedHeld h
    · exact closeWriteEnd_feedHeld h
  all_goals exact h

theorem eventRule_feedHeld (c : Instr) {s : State} (h : FeedHeld s) (hc : ConverterLaw s) (he : eventTime s c ≠ none) :
    FeedHeld (eventRule c s) := by
  cases c with
  | warm => exact warmState_feedHeld h
  | pageProgramCompletion v => exact pageDone_feedHeld h v
  | scanTimerExpiry => exact scanExpiry_feedHeld h
  | conversionCompletion raw =>
    exact conversionDone_feedHeld h (hc.mp (Option.isSome_iff_ne_none.mpr he)) raw
  | encoderTransition a b => exact encoderChange_feedHeld h a b
  | feedWindowExpiry => exact feedWindow_feedHeld h
  | pickupEdge d =>
    simp only [eventRule, pickupEdge]
    split
    · exact h
    · exact raiseIf_feedHeld (setMotor_feedHeld h d _) _ _
  | pickupTimeout d => exact setMotor_feedHeld h d _
  | loopTimerExpiry d =>
    cases d with
    | a => exact publishWheel_feedHeld h .a (wheelPass .a s)
    | b => exact publishWheel_feedHeld h .b (wheelPass .b s)
    | p => exact publishPump_feedHeld h (pumpPass s)
  | pwmPeriodStart => exact feedHeld_congr h rfl rfl rfl
  | stallConfirmExpiry w =>
    simp only [eventRule, stall]
    split
    · exact publishWheel_feedHeld (s := raise .driveStall s) h _ _
    · exact publishWheel_feedHeld (s := raise .driveLockout (raise .driveStall s)) h _ _
  | reverseTimerExpiry w => exact publishWheel_feedHeld h w _
  | loadedTimeExpiry =>
    exact loadedTick_feedHeld (loadedTick_feedHeld (s := { s with drives := { s.drives with
      loadedTimer := some (s.clock + 100000) } }) h .a) .b
  | reportStaleExpiry =>
    simp only [eventRule, reportStale]
    split
    · exact feedHeld_congr (enterReturn_feedHeld (s := { s with ret := { s.ret with
        fresh := false, staleTimer := none } }) h _) rfl rfl rfl
    · exact h
  | blockageConfirmExpiry =>
    exact enterReturn_feedHeld (s := { s with ret := { s.ret with confirm := none } }) h _
  | recoveryTimerExpiry =>
    exact enterReturn_feedHeld (s := { s with ret := { s.ret with recovery := none } }) h _
  | wheelDemandExpiry =>
    exact setExpired_feedHeld (s := raise .wheelExpired { s with demand := { s.demand with life := none } }) h _
  | _ => first | exact absurd rfl he | exact feedHeld_touches h (eventRule_touches _ s) (by simp [touched])

/-! ## The converter's law -/

theorem converterLaw_congr {s t : State} (h : ConverterLaw s) (hc : t.acq.conversion = s.acq.conversion)
    (hs : t.acq.state = s.acq.state) : ConverterLaw t := by
  unfold ConverterLaw; rw [hc, hs]; exact h

theorem toOff_converter (s : State) : ConverterLaw (toOff s) := by
  simp [ConverterLaw, toOff, State.setAcq]

theorem startScan_converter {st : AcqState} (hst : st = .settling ∨ st = .scanning) (s : State) :
    ConverterLaw (startScan st s) := by
  rcases hst with rfl | rfl <;> simp [ConverterLaw, startScan, State.setAcq]

theorem toWaiting_converter (s : State) : ConverterLaw (toWaiting s) := by
  simp [ConverterLaw, toWaiting, State.setAcq]

theorem afterScan_converter (s : State) : ConverterLaw (afterScan s) := by
  unfold afterScan
  split
  · exact toOff_converter _
  · split
    · dsimp only
      split
      · exact toWaiting_converter _
      · exact startScan_converter (.inr rfl) _
      · exact toOff_converter _
    · exact toWaiting_converter _
    · exact toWaiting_converter _

theorem conversionDone_converter {s : State} (hf : InFlight s) (raw : Int) : ConverterLaw (conversionDone raw s) := by
  cases hc : s.acq.activeList[s.acq.results.length]? with
  | none => rw [conversionDone_of_end hc]; exact afterScan_converter _
  | some c =>
    rw [conversionDone_of_entry hc]
    split
    · have running : (converted raw c s).acq.conversion = some ((zeroChecked raw c s).inMs 2) := rfl
      unfold ConverterLaw
      rw [running, converted_state]
      exact iff_of_true rfl hf
    · exact afterScan_converter _

theorem scanExpiry_converter {s : State} (h : ConverterLaw s) : ConverterLaw (scanExpiry s) := by
  have reloaded : ConverterLaw (reloadScanTimer s) := h
  unfold scanExpiry
  dsimp only
  split
  · unfold startAtExpiry
    dsimp only
    split
    · exact startScan_converter (.inr rfl) _
    · exact startScan_converter (.inr rfl) _
    · exact toOff_converter _
  all_goals exact reloaded

theorem acceptAcquisition_converter {s : State} (h : ConverterLaw s) (q : AcqRequest) :
    ConverterLaw (acceptAcquisition q s) := by
  have left (u : State) : ConverterLaw (leaveOff u) := by
    have started := startScan_converter (.inl rfl) (adopt u)
    unfold leaveOff
    dsimp only
    split
    · exact converterLaw_congr started (by simp [loadScanTimer, State.setAcq]) (by simp [loadScanTimer, State.setAcq])
    · exact converterLaw_congr started (by simp) (by simp)
  unfold acceptAcquisition
  dsimp only
  split
  · exact toOff_converter _
  · exact left _
  · exact left _
  · split <;> exact h

theorem rowRule_converter (c : Instr) (l : Link) (p : List Byte) {s : State} (h : ConverterLaw s)
    (hr : requestRow c ≠ none) : ConverterLaw (rowRule c l p s).1 := by
  by_cases ha : Part.acq ∈ touched c
  · cases c with
    | setAcquisition =>
      simp only [rowRule, setAcquisitionBody]
      split
      · exact h
      · exact acceptAcquisition_converter h _
    | _ => first | exact absurd rfl hr | exact absurd ha (by decide)
  · have same := rowRule_touches c l p s .acq ha
    exact converterLaw_congr h (congrArg (·.conversion) same) (congrArg (·.state) same)

theorem eventRule_converter (c : Instr) {s : State} (h : ConverterLaw s) (he : eventTime s c ≠ none) :
    ConverterLaw (eventRule c s) := by
  by_cases ha : Part.acq ∈ touched c
  · cases c with
    | warm => simp [ConverterLaw, eventRule, warmState, warmAcq]
    | scanTimerExpiry => exact scanExpiry_converter h
    | conversionCompletion raw => exact conversionDone_converter (h.mp (Option.isSome_iff_ne_none.mpr he)) raw
    | _ => first | exact absurd rfl he | exact absurd ha (by simp [touched])
  · have same := eventRule_touches c s .acq ha
    exact converterLaw_congr h (congrArg (·.conversion) same) (congrArg (·.state) same)

/-! ## Every step -/

/-- Settles O8: `FeedHeld`, with the converter's law, which says that a conversion ends a scan in flight. -/
theorem stepKeepsFeedHoldLaw : Obligations.StepKeepsFeedHoldLaw := by
  intro s t hf hc h
  rw [feedHoldLaw_iff] at hf ⊢
  refine step_keeps (P := fun s => FeedHeld s ∧ ConverterLaw s) h ⟨hf, hc⟩ (fun _ _ _ h => h) (fun _ _ h => h) ?_
  intro c s t h hP
  refine exec_keeps (P := fun s => FeedHeld s ∧ ConverterLaw s) h hP (fun _ _ h => h) (fun _ _ h => h)
    (fun _ => ⟨?_, ?_⟩) (fun _ h => h) (fun _ _ h => ⟨feedHeld_congr h.1 rfl rfl rfl, h.2⟩) ?_ ?_
  · exact (rfl : FeedHeld (coldState s))
  · simp [ConverterLaw, coldState, State.reset]
  · exact fun l p s hr h => ⟨rowRule_feedHeld c l p h.1 hr, rowRule_converter c l p h.2 hr⟩
  · exact fun s _ he h => ⟨eventRule_feedHeld c h.1 h.2 he, eventRule_converter c h.2 he⟩

end Sys2Proof.Machine
end

section
/-! What a step can do to the station table and the geometry record in force, said once (`Move`), and the laws that follow:
the table's order, the summary, the prepared buffers and the waiting holds (R52, R71, R74, R76). -/

namespace Sys2Proof.Machine

open Sys2Proof.Safety

/-! ## Moves of the table -/

/-- The geometry record in force and the station table. -/
def tableOf (s : State) : Geometry × StationTable := (s.geometry, s.table)

/-- One change of the table or of the record in force; `I` says of the inclinations that a scan can bring. -/
inductive Move (I : Inclination → Prop) : Geometry × StationTable → Geometry × StationTable → Prop
  | opened (g : Geometry) (t : StationTable) {g' : Geometry} (h : firstBadField g' = none) : Move I (g, t) (g', t.emptied)
  | emptied (g : Geometry) (t : StationTable) : Move I (g, t) (g, t.emptied)
  | extended (g : Geometry) (t : StationTable) {d : Int} (h : g.design < d)
      (hd : badDesign { g with design := d } = false) : Move I (g, t) ({ g with design := d }, t)
  | cleared (g : Geometry) (t : StationTable) : Move I (g, t) (g, { t with acc := {} })
  | sampled (g : Geometry) (t : StationTable) {i : Inclination} (b : Bool) (h : I i) :
      Move I (g, t) (g, { t with lastIncl := some i, acc := if b then t.acc.add i else t.acc })
  | crossed {s : State} {k : Nat} (ref : RefState) (h : k < s.geometry.stations) (hp : s.panel = .active) :
      Move I (tableOf s) (tableOf (crossing k ref s))
  | settled (s : State) (k : Nat) : Move I (tableOf s) (tableOf (settle k s))
  | restitched {s : State} {w : Walker} (h : s.table.walker = some w) : Move I (tableOf s) (tableOf (restitch w s))
  | held (g : Geometry) (t : StationTable) (l : Link) {q : Query} (h : rangeReady t.records q = false) :
      Move I (g, t) (g, t.setHold l (.waiting q))
  | freed (g : Geometry) (t : StationTable) (l : Link) : Move I (g, t) (g, t.setHold l .free)
  | reviewed (s : State) : Move I (tableOf s) (tableOf (reviewHolds s))
  | allFreed (g : Geometry) (t : StationTable) : Move I (g, t) (g, t.mapHolds fun _ => .free)

/-- Any number of moves, one after the other. -/
def Moves (I : Inclination → Prop) (s t : State) : Prop := Relation.ReflTransGen (Move I) (tableOf s) (tableOf t)

theorem Moves.refl {I : Inclination → Prop} (s : State) : Moves I s s := Relation.ReflTransGen.refl

theorem Moves.trans {I : Inclination → Prop} {s t u : State} (h : Moves I s t) (g : Moves I t u) : Moves I s u :=
  Relation.ReflTransGen.trans h g

/-- A change outside the table and the record in force is no move. -/
theorem moves_of_touches {I : Inclination → Prop} {ps : List Part} {s t : State} (h : Touches ps s t)
    (hg : Part.geometry ∉ ps) (ht : Part.table ∉ ps) : Moves I s t := by
  have same : tableOf t = tableOf s := by
    have g : t.geometry = s.geometry := h .geometry hg
    have r : t.table = s.table := h .table ht
    rw [tableOf, tableOf, g, r]
  rw [Moves, same]

/-- One move, with the states that it relates given by what they hold. -/
theorem moves_one {I : Inclination → Prop} {s t : State} (h : Move I (tableOf s) (tableOf t)) : Moves I s t := .single h

/-- What every move keeps, any number of moves keep. -/
theorem moves_keep {I : Inclination → Prop} {P : Geometry × StationTable → Prop} {s t : State} (h : Moves I s t)
    (hP : P (tableOf s)) (keep : ∀ x y, Move I x y → P x → P y) : P (tableOf t) := by
  unfold Moves at h
  generalize tableOf t = y at h ⊢
  induction h with
  | refl => exact hP
  | tail _ m ih => exact keep _ _ m ih

/-! ## The moves of each command -/

theorem settleEach_moves {I : Inclination → Prop} (ks : List Nat) (s : State) : Moves I s (settleEach ks s) := by
  induction ks generalizing s with
  | nil => exact .refl s
  | cons k ks ih => exact (moves_one (.settled s k)).trans (ih _)

theorem endWalkStage_moves {I : Inclination → Prop} (s : State) : Moves I s (endWalkStage s) := by
  unfold endWalkStage
  split
  · exact (settleEach_moves (openStations s.table.records) s).trans (moves_of_touches (ps := [.archive])
      (by simp [touches_iff, startWrite]) (by decide) (by decide))
  · exact .refl s

theorem closePanelBody_moves {I : Inclination → Prop} (l : Link) (s : State) : Moves I s (closePanelBody l s).1 := by
  unfold closePanelBody
  repeat' split
  all_goals try exact .refl s
  exact Moves.trans (moves_of_touches (ps := [.archive, .panel, .depth]) (by simp [touches_iff, setPanel, State.setSlot])
    (by decide) (by decide)) (endWalkStage_moves _)

theorem openPanelBody_moves {I : Inclination → Prop} (l : Link) (p : List Byte) (s : State) :
    Moves I s (openPanelBody l p s).1 := by
  unfold openPanelBody
  split
  · exact .refl s
  · dsimp only
    split
    · exact .refl s
    · rename_i h
      refine Moves.trans (t := { s with geometry := geometryOf p, table := s.table.emptied })
        (moves_one (.opened _ _ h)) (moves_of_touches (ps := [.panel, .depth, .drives, .ret]) ?_ (by decide) (by decide))
      exact touches_trans (by simp [touches_iff]) (touches_mono (openGovernor_touches _ _) (by decide))

theorem extendDepthBody_moves {I : Inclination → Prop} (l : Link) (p : List Byte) (s : State) :
    Moves I s (extendDepthBody l p s).1 := by
  unfold extendDepthBody
  dsimp only
  split
  · exact .refl s
  · split
    · exact .refl s
    · rename_i h
      obtain ⟨deeper, design⟩ := not_or.mp h
      have moved : Moves I s { s with geometry := { s.geometry with design := unsignedAt p 0 4 } } :=
        moves_one (.extended _ _ (not_le.mp deeper) (eq_false_of_ne_true design))
      unfold extendDesign
      dsimp only
      split
      · exact moved.trans (moves_of_touches (ps := [.depth]) (by simp [touches_iff, setFinal]) (by decide) (by decide))
      · exact moved

theorem clearAccumulator_moves {I : Inclination → Prop} (s : State) : Moves I s (clearAccumulator s) :=
  moves_one (.cleared _ _)

theorem setDepthBody_moves {I : Inclination → Prop} (l : Link) (p : List Byte) (s : State) :
    Moves I s (setDepthBody l p s).1 := by
  unfold setDepthBody
  dsimp only
  split
  · exact .refl s
  · have referenced (c w : Int) : Moves I s (setReference .referenced
        { s with depth := { s.depth with count := c, windowStart := w } }) :=
      moves_of_touches (ps := [.depth]) (by simp [touches_iff, setReference]) (by decide) (by decide)
    refine Moves.trans ?_ (clearAccumulator_moves _)
    split
    · exact referenced _ _
    · exact (referenced _ _).trans (.refl _)

theorem evaluateStations_moves {I : Inclination → Prop} (l : Link) (first count : Nat) (s : State) :
    Moves I s (evaluateStations l first count s).1 := by
  unfold evaluateStations
  split
  · exact .refl s
  · split
    · exact .refl s
    · dsimp only
      split
      · exact .refl s
      · rename_i h
        exact moves_one (.held _ _ l (eq_false_of_ne_true h))

theorem readStationsBody_moves {I : Inclination → Prop} (l : Link) (p : List Byte) (s : State) :
    Moves I s (readStationsBody l p s).1 := by
  have freed : Moves I s { s with table := s.table.setHold l .free } := moves_one (.freed _ _ l)
  unfold readStationsBody stationsOf
  dsimp only
  split
  · exact .refl s
  · split
    · exact evaluateStations_moves _ _ _ s
    · split <;> exact .refl s
    · split
      · exact freed
      · exact .refl s
    · split
      · exact freed
      · exact freed.trans (evaluateStations_moves _ _ _ _)

theorem cancelHoldBody_moves {I : Inclination → Prop} (l : Link) (s : State) : Moves I s (cancelHoldBody l s).1 := by
  unfold cancelHoldBody
  split
  · exact .refl s
  · exact moves_one (.freed _ _ l)

theorem emptied_moves {I : Inclination → Prop} (s : State) : Moves I s { s with table := s.table.emptied } :=
  moves_one (.emptied _ _)

/-- A request moves the table as its row says, or leaves it. -/
theorem rowRule_moves {I : Inclination → Prop} (c : Instr) (l : Link) (p : List Byte) (s : State) :
    Moves I s (rowRule c l p s).1 := by
  by_cases untouched : Part.geometry ∉ touched c ∧ Part.table ∉ touched c
  · exact moves_of_touches (rowRule_touches c l p s) untouched.1 untouched.2
  · cases c with
    | openPanel => exact payloadOf_keeps (P := Moves I s) (.refl s) (openPanelBody_moves l p s)
    | closePanel => exact emptyPayload_keeps (P := Moves I s) (.refl s) (closePanelBody_moves l s)
    | abandonPanel =>
      refine emptyPayload_keeps (P := Moves I s) (.refl s) ?_
      unfold abandonPanelBody
      split
      · exact .refl s
      · exact .refl s
      all_goals exact (emptied_moves s).trans (moves_of_touches (setPanel_touches _ _) (by decide) (by decide))
    | extendDepth => exact payloadOf_keeps (P := Moves I s) (.refl s) (extendDepthBody_moves l p s)
    | setDepth => exact payloadOf_keeps (P := Moves I s) (.refl s) (setDepthBody_moves l p s)
    | readStations => exact payloadOf_keeps (P := Moves I s) (.refl s) (readStationsBody_moves l p s)
    | cancelHold => exact emptyPayload_keeps (P := Moves I s) (.refl s) (cancelHoldBody_moves l s)
    | _ => first | exact .refl s | exact absurd (by decide) untouched

theorem judgeCrossing_moves {I : Inclination → Prop} (b a : Int) (s : State) : Moves I s (judgeCrossing b a s) := by
  unfold judgeCrossing
  dsimp only
  split
  · rename_i h
    obtain ⟨panel, -, below, -⟩ := h
    have crossed : Moves I s (crossing s.depth.floor s.depth.ref
        { s with depth := { s.depth with floor := s.depth.floor + 1 } }) :=
      moves_one (.crossed (s := { s with depth := { s.depth with floor := s.depth.floor + 1 } }) _ below panel)
    split
    · exact crossed.trans (moves_of_touches (ps := [.depth]) (by simp [touches_iff, setFinal]) (by decide) (by decide))
    · exact crossed
  · exact .refl s

theorem judgeSettlement_moves {I : Inclination → Prop} (b a : Int) (s : State) :
    Moves I s (judgeSettlement b a s) := by
  unfold judgeSettlement
  split
  · split
    · exact moves_one (.settled _ _)
    · exact .refl _
  · exact .refl _

theorem judgeRearm_moves {I : Inclination → Prop} (a : Int) (s : State) : Moves I s (judgeRearm a s) := by
  unfold judgeRearm
  dsimp only
  split
  · exact moves_one (.cleared _ _)
  · exact .refl _

theorem countStep_moves {I : Inclination → Prop} (step : Int) (s : State) : Moves I s (countStep step s) := by
  have counted : Moves I s { s with depth := { s.depth with count := s.depth.count + step } } := .refl s
  unfold countStep
  dsimp only
  split
  · split
    · exact (counted.trans (judgeCrossing_moves _ _ _)).trans (judgeSettlement_moves _ _ _)
    · exact counted.trans (judgeRearm_moves _ _)
  · exact moves_of_touches (illegalTransition_touches s) (by decide) (by decide)

theorem encoderChange_moves {I : Inclination → Prop} (a b : Bool) (s : State) : Moves I s (encoderChange a b s) := by
  have lined : Moves I s (setLines a b s) := .refl s
  unfold encoderChange
  dsimp only
  split
  · exact lined
  · exact lined.trans (countStep_moves _ _)
  · exact lined.trans (countStep_moves _ _)
  · exact lined.trans (moves_of_touches (illegalTransition_touches _) (by decide) (by decide))

theorem restitchDone_moves {I : Inclination → Prop} {w : Walker} {s : State} (h : s.table.walker = some w) :
    Moves I s (restitchDone w s) := by
  unfold restitchDone
  dsimp only
  split
  · exact (moves_one (.restitched h)).trans (endWalkStage_moves _)
  · exact moves_one (.restitched h)

theorem pageDone_moves {I : Inclination → Prop} (v : Bool) (s : State) : Moves I s (pageDone v s) := by
  have ended {u : State} (h : Touches [.archive] s u) : Moves I s (closeWriteEnd u) :=
    Moves.trans (t := setPanel .closed (raise .archiveDone (u.setEngine .idle)))
      (moves_of_touches (ps := [.archive, .panel, .depth]) (touches_trans (touches_mono h (by decide))
        (by simp [touches_iff, setPanel])) (by decide) (by decide))
      (moves_one (.reviewed _))
  unfold pageDone
  split
  · dsimp only
    split
    · split
      · exact .refl s
      · exact ended (by simp [touches_iff, State.setSlot])
    · exact ended (by simp [touches_iff, State.setSlot])
  all_goals exact .refl s

/-- The inclinations that a scan of these conversions can bring. -/
def Brings (results : List Conversion) (i : Inclination) : Prop :=
  some i.ix = scanValue results .ix ∧ some i.iy = scanValue results .iy ∧ some i.tw = scanValue results .tw

theorem scanEntries_get (seq : Nat) (v : Bool) (results : List Conversion) (c : Channel) :
    ({ seq := seq, valid := v, entries := scanEntries results } : ScanRecord).get c = scanValue results c := by
  cases c <;> rfl

theorem brings_of_inclination {seq : Nat} {v : Bool} {results : List Conversion} {i : Inclination}
    (h : ({ seq := seq, valid := v, entries := scanEntries results } : ScanRecord).inclination = some i) :
    Brings results i := by
  unfold ScanRecord.inclination at h
  simp only [scanEntries_get] at h
  split at h
  · rename_i x y t hx hy ht
    obtain rfl := Option.some.inj h
    exact ⟨hx.symm, hy.symm, ht.symm⟩
  · cases h

theorem consumers_moves {I : Inclination → Prop} {r : ScanRecord} (h : ∀ i, r.inclination = some i → I i) (s : State) :
    Moves I s (consumers r s) := by
  have sampled : Moves I s (stationScan r s.drawn) := by
    unfold stationScan
    split
    · rename_i hi
      exact moves_one (.sampled _ _ _ (h _ hi))
    · exact .refl s
  refine sampled.trans (moves_of_touches (ps := [.drives, .ret, .align, .plates]) ?_ (by decide) (by decide))
  have watched : Touches [.drives, .ret, .align, .plates] (stationScan r s.drawn)
      (returnScan r (driveScan r (stationScan r s.drawn))) :=
    touches_trans (touches_mono (driveScan_touches r _) (by decide)) (touches_mono (returnScan_touches r _) (by decide))
  refine touches_trans watched ?_
  unfold consumers
  dsimp only
  split
  · exact touches_trans (touches_mono (alignScan_touches r _) (by decide)) (touches_mono (plateScan_touches r _) (by decide))
  · exact touches_trans (touches_mono (plateScan_touches r _) (by decide)) (touches_mono (alignScan_touches r _) (by decide))

theorem scanCompletion_moves (s : State) : Moves (Brings s.acq.results) s (scanCompletion s) := by
  unfold scanCompletion
  refine Moves.trans ?_ (moves_of_touches (afterScan_touches _) (by decide) (by decide))
  split
  · exact .refl s
  · unfold publishScan
    dsimp only
    refine Moves.trans (t := (judgeScan (validRf ((scanEntries s.acq.results)[Channel.rf.code]?).join) s).setAcq _)
      (moves_of_touches (ps := [.acq, .depth]) (touches_trans (judgeScan_touches _ s) (setAcq_touches _ _ |> (touches_mono · (by decide))))
        (by decide) (by decide)) (consumers_moves ?_ _)
    exact fun i hi => brings_of_inclination hi

theorem converted_results (raw : Int) (c : Channel) (s : State) : (converted raw c s).acq.results
    = s.acq.results ++ [{ channel := c, result := convert (zeroChecked raw c s).acq.zero c raw }] := by
  unfold converted zeroChecked zeroCheck
  dsimp only
  repeat' split
  all_goals rfl

/-- The conversions with which the scan in flight may end: those that it has, with one more of any channel. -/
def Ending (results : List Conversion) (i : Inclination) : Prop :=
  Brings results i ∨ ∃ z c raw, Brings (results ++ [{ channel := c, result := convert z c raw }]) i

theorem Moves.mono {I J : Inclination → Prop} (h : ∀ i, I i → J i) {s t : State} (g : Moves I s t) : Moves J s t := by
  refine Relation.ReflTransGen.mono (fun x y m => ?_) _ _ g
  cases m with
  | opened g t h => exact .opened g t h
  | emptied g t => exact .emptied g t
  | extended g t h hd => exact .extended g t h hd
  | cleared g t => exact .cleared g t
  | sampled g t b hi => exact .sampled g t b (h _ hi)
  | crossed ref h hp => exact .crossed ref h hp
  | settled s k => exact .settled s k
  | restitched h => exact .restitched h
  | held g t l h => exact .held g t l h
  | freed g t l => exact .freed g t l
  | reviewed s => exact .reviewed s
  | allFreed g t => exact .allFreed g t

theorem conversionDone_moves (raw : Int) (s : State) : Moves (Ending s.acq.results) s (conversionDone raw s) := by
  cases hc : s.acq.activeList[s.acq.results.length]? with
  | none =>
    rw [conversionDone_of_end hc]
    exact (scanCompletion_moves s).mono fun _ => .inl
  | some c =>
    have gained : Moves (Ending s.acq.results) s (converted raw c s) :=
      moves_of_touches (converted_touches raw c s) (by decide) (by decide)
    rw [conversionDone_of_entry hc]
    split
    · exact gained
    · refine gained.trans ((scanCompletion_moves _).mono fun i hi => .inr ⟨(zeroChecked raw c s).acq.zero, c, raw, ?_⟩)
      rwa [converted_results] at hi

/-- An event moves the table as its chapter says, or leaves it. -/
theorem eventRule_moves (c : Instr) (s : State) : Moves (Ending s.acq.results) s (eventRule c s) := by
  by_cases untouched : Part.geometry ∉ touched c ∧ Part.table ∉ touched c
  · exact moves_of_touches (eventRule_touches c s) untouched.1 untouched.2
  · cases c with
    | warm =>
      exact Moves.trans (moves_one (.allFreed _ _)) (moves_of_touches (s := { s with table := s.table.mapHolds fun _ => .free })
        (ps := [.acq, .depth, .align, .drives, .plates, .demand]) (by simp [touches_iff, eventRule, warmState]) (by decide)
        (by decide))
    | pageProgramCompletion v => exact pageDone_moves v s
    | conversionCompletion raw => exact conversionDone_moves raw s
    | encoderTransition a b => exact encoderChange_moves a b s
    | restitchStepCompletion =>
      simp only [eventRule]
      split
      · exact restitchDone_moves (by assumption)
      · exact .refl s
    | _ => first | exact .refl s | exact absurd (by simp [touched]) untouched

end Sys2Proof.Machine
end

section
/-! The laws of the station table over every step: the record in force and the table's order (R3, R52), the summary (R71),
the prepared buffers and the waiting holds (R74, R76). -/

namespace Sys2Proof.Machine

open Sys2Proof.Safety

/-! ## What the moves do to the records -/

/-- The tolerance check changes only the marks of the first exceedance and the flags. -/
theorem applyTolerance_placed (r : Station) (rs : List Station) (s : State) :
    tableOf (reviewHolds (setRecords rs (applyTolerance r s))) = tableOf (reviewHolds (setRecords rs
      { s with table := { s.table with
          firstX := s.table.firstX || (r.marks.exceedsX && !s.table.firstX)
          firstY := s.table.firstY || (r.marks.exceedsY && !s.table.firstY) } })) := by
  simp only [applyTolerance]
  generalize (_ || _) = c
  cases c <;> rfl

/-- Settling leaves the state, or puts the record of k, SETTLED, in place and reviews the holds. -/
theorem settle_cases (k : Nat) (s : State) : settle k s = s ∨ ∃ r m fx fy,
    findStation s.table.records k = some r ∧ r.state = .opened
    ∧ tableOf (settle k s) = tableOf (reviewHolds (setRecords
        (putStation { r with state := .settled, marks := m } s.table.records)
        { s with table := { s.table with firstX := fx, firstY := fy } })) := by
  unfold settle
  cases h : findStation s.table.records k with
  | none => exact .inl rfl
  | some r =>
    dsimp only
    split
    · rename_i ho
      right
      split
      · exact ⟨r, r.marks, s.table.firstX, s.table.firstY, rfl, ho, rfl⟩
      · exact ⟨r, (judged s.geometry { r with state := .settled }).marks, _, _, rfl, ho, applyTolerance_placed _ _ s⟩
    · exact .inl rfl

theorem advanceWalker_congr {c : Nat} {s t : State} (h : tableOf s = tableOf t) (hc : s.clock = t.clock) :
    tableOf (advanceWalker c s) = tableOf (advanceWalker c t) := by
  obtain ⟨geometry, table⟩ := Prod.mk.inj h
  simp only [tableOf, advanceWalker, geometry, table, hc]

/-- A restitch step moves the walker on, after it has put the record of the cursor, fresh, in place. -/
theorem restitch_cases (w : Walker) (s : State) :
    (findStation s.table.records w.cursor = none ∧ restitch w s = advanceWalker w.cursor s) ∨ ∃ r m fx fy,
    findStation s.table.records w.cursor = some r
    ∧ tableOf (restitch w s) = tableOf (advanceWalker w.cursor (reviewHolds (setRecords
        (putStation { withOffset s.geometry s.table.records r with stale := false, marks := m } s.table.records)
        { s with table := { s.table.mapHolds (Hold.invalidate [r.index]) with firstX := fx, firstY := fy } }))) := by
  unfold restitch
  cases h : findStation s.table.records w.cursor with
  | none => exact .inl ⟨rfl, rfl⟩
  | some r =>
    right
    dsimp only [restitchRecord]
    split
    · exact ⟨r, (judged s.geometry { withOffset s.geometry s.table.records r with stale := false }).marks, _, _, rfl,
        advanceWalker_congr (applyTolerance_placed _ _ (invalidateHolds [r.index] s)) (by simp)⟩
    · exact ⟨r, (withOffset s.geometry s.table.records r).marks, s.table.firstX, s.table.firstY, rfl, rfl⟩

/-! ## Lookup in a changed list -/

theorem findStation_putStation {rs : List Station} (h : Ordered rs) (r : Station) (k : Nat) :
    findStation (putStation r rs) k = if k = r.index then some r else findStation rs k := by
  have hp := ordered_putStation h r
  split
  · rename_i e
    exact (findStation_iff hp).mpr ⟨(mem_putStation h r r).mpr (.inl rfl), e.symm⟩
  · rename_i e
    ext q
    rw [findStation_iff hp, findStation_iff h, mem_putStation h]
    constructor
    · rintro ⟨rfl | ⟨hq, -⟩, hk⟩
      · exact absurd hk.symm e
      · exact ⟨hq, hk⟩
    · rintro ⟨hq, rfl⟩
      exact ⟨.inr ⟨hq, e⟩, rfl⟩

theorem findStation_staleAbove {rs : List Station} (h : Ordered rs) {j k : Nat} (hj : j ≤ k) :
    findStation (staleAbove k rs) j = findStation rs j := by
  ext q
  rw [findStation_iff (ordered_staleAbove h k), findStation_iff h, mem_staleAbove]
  constructor
  · rintro ⟨⟨o, ho, rfl⟩, hk⟩
    have below : ¬k < o.index := by
      intro g
      rw [if_pos g] at hk
      exact absurd hj (by simp only at hk; omega)
    rw [if_neg below] at hk ⊢
    exact ⟨ho, hk⟩
  · rintro ⟨hq, rfl⟩
    exact ⟨⟨q, hq, by rw [if_neg (not_lt.mpr hj)]⟩, rfl⟩

/-- An index of a list whose records above k were marked stale: those of the list itself. -/
theorem staleAbove_index {rs : List Station} {k : Nat} {q : Station} (h : q ∈ staleAbove k rs) :
    ∃ o ∈ rs, o.index = q.index := by
  obtain ⟨o, ho, rfl⟩ := mem_staleAbove.mp h
  exact ⟨o, ho, by split <;> rfl⟩

theorem stationEntry_congr {rs rs' : List Station} {k : Nat} (h : findStation rs' k = findStation rs k) :
    stationEntry rs' k = stationEntry rs k := by
  unfold stationEntry; rw [h]

/-! ## The record in force and the order of the table -/

/-- The laws of the record in force and of the table's order. -/
def RecordsLaw (x : Geometry × StationTable) : Prop :=
  firstBadField x.1 = none ∧ Ordered x.2.records ∧ (∀ r ∈ x.2.records, r.index < x.1.stations) ∧ x.1.stations ≤ 1024

theorem recordsLaw_iff (s : State) : RecordsLaw (tableOf s) ↔ GeometryLaw s ∧ TableLaw s := .rfl

theorem badDesign_of_check {g : Geometry} (h : firstBadField g = none) : badDesign g = false := by
  simp only [firstBadField, ite_some_eq_none] at h
  exact h.2.2.1

/-- A check does not depend on the design depth but in its field 4. -/
theorem check_of_design {g : Geometry} {d : Int} (h : firstBadField g = none) (hd : badDesign { g with design := d } = false) :
    firstBadField { g with design := d } = none := by
  simp only [firstBadField, ite_some_eq_none] at h ⊢
  rw [hd]
  exact ⟨h.1, h.2.1, rfl, h.2.2.2⟩

theorem stations_mono {g : Geometry} (h : firstBadField g = none) {d : Int} (hd : g.design < d) :
    g.stations ≤ ({ g with design := d } : Geometry).stations := by
  have spacing : 100 ≤ g.spacing ∧ g.spacing ≤ 500 := by
    simp only [firstBadField, ite_some_eq_none] at h
    exact outside_iff.mp h.1
  have quotient : (g.design - g.start) / g.spacing ≤ (d - g.start) / g.spacing :=
    Int.ediv_le_ediv (by omega) (by omega)
  simp only [Geometry.stations]
  omega

theorem recordsLaw_putStation {g : Geometry} {t t' : StationTable} (h : RecordsLaw (g, t)) {r : Station}
    (hr : r.index < g.stations) (e : t'.records = putStation r t.records) : RecordsLaw (g, t') := by
  obtain ⟨checked, ordered, within, most⟩ := h
  refine ⟨checked, by rw [e]; exact ordered_putStation ordered r, fun q hq => ?_, most⟩
  rw [e, mem_putStation ordered] at hq
  rcases hq with rfl | ⟨hq, -⟩
  · exact hr
  · exact within q hq

theorem recordsLaw_of_records {g : Geometry} {t t' : StationTable} (h : RecordsLaw (g, t))
    (e : t'.records = t.records) : RecordsLaw (g, t') := by
  obtain ⟨checked, ordered, within, most⟩ := h
  exact ⟨checked, e ▸ ordered, e ▸ within, most⟩

theorem crossing_geometry (k : Nat) (ref : RefState) (s : State) : (crossing k ref s).geometry = s.geometry :=
  crossing_touches k ref s .geometry (by decide)

/-- The indices of a list above k. -/
def indicesAbove (k : Nat) (rs : List Station) : List Nat := (rs.filter fun r => k < r.index).map (·.index)

/-- The record that a crossing of k places: its offsets computed from the table before it. -/
def crossed (k : Nat) (ref : RefState) (s : State) : Station :=
  withOffset s.geometry s.table.records (crossingRecord k ref s)

/-- The crossing of k, as it acts on the table. -/
theorem crossing_table {s : State} (k : Nat) (ref : RefState) (h : s.panel = .active) :
    (crossing k ref s).table = if crossesAhead s.table.walker k then
      let rs : List Station := staleAbove k (putStation (crossed k ref s) s.table.records)
      ({ s.table with
        reference := some k, acc := {}, records := rs, summary := summaryOf rs
        walker := (nextAbove rs k).map fun c => { cursor := c, due := s.clock + 50 } }).mapHolds
        (Hold.invalidate (k :: indicesAbove k rs))
    else
      let rs : List Station := putStation { crossed k ref s with stale := true }
        s.table.records
      ({ s.table with reference := some k, acc := {}, records := rs, summary := summaryOf rs }).mapHolds
        (Hold.invalidate [k]) := by
  unfold crossing
  rw [if_neg (by simp [h])]
  dsimp only
  split
  all_goals rfl

theorem recordsLaw_move {I : Inclination → Prop} {x y : Geometry × StationTable} (m : Move I x y) (h : RecordsLaw x) :
    RecordsLaw y := by
  cases m with
  | opened g t hg => exact ⟨hg, .nil, fun r hr => (nomatch hr), (badDesign_iff.mp (badDesign_of_check hg)).2.2⟩
  | emptied g t => exact ⟨h.1, .nil, fun r hr => (nomatch hr), h.2.2.2⟩
  | extended g t hg hd =>
    obtain ⟨checked, ordered, within, -⟩ := h
    exact ⟨check_of_design checked hd, ordered, fun r hr => (within r hr).trans_le (stations_mono checked hg),
      (badDesign_iff.mp hd).2.2⟩
  | cleared g t => exact h
  | sampled g t b hi => exact h
  | @crossed s k ref hk hp =>
    have geometry := crossing_geometry k ref s
    have table := crossing_table k ref hp
    unfold tableOf
    rw [geometry, table]
    split
    · let r := crossed k ref s
      obtain ⟨checked, ordered, within, most⟩ :=
        recordsLaw_putStation (t' := { s.table with records := putStation r s.table.records }) (r := r) h hk rfl
      refine ⟨checked, ordered_staleAbove ordered k, fun q hq => ?_, most⟩
      obtain ⟨o, ho, e⟩ := staleAbove_index hq
      exact e ▸ within o ho
    · exact recordsLaw_putStation h (r := { crossed k ref s with
        stale := true }) hk rfl
  | settled s k =>
    rcases settle_cases k s with e | ⟨r, m, fx, fy, hr, -, e⟩ <;> rw [e]
    · exact h
    · exact recordsLaw_putStation h (r := { r with state := .settled, marks := m })
        (h.2.2.1 r (findStation_mem hr).1) rfl
  | @restitched s w hw =>
    rcases restitch_cases w s with ⟨-, e⟩ | ⟨r, m, fx, fy, hr, e⟩ <;> rw [e]
    · exact h
    · exact recordsLaw_putStation h (r := { withOffset s.geometry s.table.records r with stale := false, marks := m })
        (h.2.2.1 r (findStation_mem hr).1) rfl
  | held g t l hq => exact recordsLaw_of_records h (by cases l <;> rfl)
  | freed g t l => exact recordsLaw_of_records h (by cases l <;> rfl)
  | reviewed s => exact h
  | allFreed g t => exact h

/-! ## The summary -/

theorem summary_move {I : Inclination → Prop} {x y : Geometry × StationTable} (m : Move I x y)
    (h : x.2.summary = summaryOf x.2.records) : y.2.summary = summaryOf y.2.records := by
  cases m with
  | opened g t hg => rfl
  | emptied g t => rfl
  | extended g t hg hd => exact h
  | cleared g t => exact h
  | sampled g t b hi => exact h
  | @crossed s k ref hk hp =>
    simp only [tableOf, crossing_table k ref hp]
    split <;> rfl
  | settled s k =>
    rcases settle_cases k s with e | ⟨r, m, fx, fy, hr, -, e⟩ <;> rw [e]
    · exact h
    · rfl
  | @restitched s w hw =>
    rcases restitch_cases w s with ⟨-, e⟩ | ⟨r, m, fx, fy, hr, e⟩ <;> rw [e]
    · exact h
    · rfl
  | held g t l hq => cases l <;> exact h
  | freed g t l => cases l <;> exact h
  | reviewed s => exact h
  | allFreed g t => exact h

/-! ## The holds -/

/-- A prepared buffer holds the entries of its range as they stand, and its range is ready (R76). -/
def Hold.Current (rs : List Station) : Hold → Prop
  | .prepared q b => b = stationEntries rs q.first q.range ∧ rangeReady rs q = true
  | _ => True

/-- A hold waits only for a range that is not ready (R74, R76). -/
def Hold.Awaits (rs : List Station) : Hold → Prop
  | .waiting q => rangeReady rs q = false
  | _ => True

theorem bufferLaw_iff (s : State) : BufferLaw s ↔ ∀ l, (s.table.hold l).Current s.table.records := by
  refine forall_congr' fun l => ?_
  cases s.table.hold l with
  | prepared q b =>
    simp only [Hold.Current, rangeReady_iff]
    exact ⟨fun h => h q b rfl, fun h q' b' e => by cases e; exact h⟩
  | _ => simp [Hold.Current]

theorem rangeReady_false {rs : List Station} {q : Query} : rangeReady rs q = false ↔
    ∃ r ∈ rs, q.covers r.index = true ∧ r.qualifies = false := by
  simp [rangeReady]

theorem waitingLaw_iff (s : State) : WaitingLaw s ↔ ∀ l, (s.table.hold l).Awaits s.table.records := by
  have open_iff (r : Station) : r.qualifies = false ↔ r.state = .opened ∨ r.stale = true := by
    cases hs : r.state <;> simp [Station.qualifies, hs]
  refine forall_congr' fun l => ?_
  cases s.table.hold l with
  | waiting q =>
    simp only [Hold.Awaits, rangeReady_false, covers_iff, open_iff, and_assoc]
    exact ⟨fun h => h q rfl, fun h q' e => by cases e; exact h⟩
  | _ => simp [Hold.Awaits]

theorem review_current {rs : List Station} {h : Hold} (hc : h.Current rs) : (h.review rs).Current rs := by
  cases h with
  | waiting q =>
    simp only [Hold.review]
    split
    · exact ⟨rfl, by assumption⟩
    · trivial
  | _ => exact hc

theorem review_awaits (rs : List Station) (h : Hold) : (h.review rs).Awaits rs := by
  cases h with
  | waiting q =>
    simp only [Hold.review]
    split
    · trivial
    · rename_i g; exact eq_false_of_ne_true g
  | _ => trivial

/-- The records of two lists differ at most at the indices `ks`. -/
def SameBut (ks : List Nat) (rs rs' : List Station) : Prop := ∀ k, k ∉ ks → findStation rs' k = findStation rs k

theorem rangeReady_find {rs : List Station} (h : Ordered rs) (q : Query) : rangeReady rs q = true ↔
    ∀ k, q.covers k = true → ∀ r, findStation rs k = some r → r.qualifies = true := by
  simp only [rangeReady, List.all_eq_true, Bool.or_eq_true, Bool.not_eq_true', findStation_iff h]
  constructor
  · rintro g k hk r ⟨hr, rfl⟩
    exact (g r hr).resolve_left (by simp [hk])
  · intro g r hr
    cases hc : q.covers r.index with
    | false => exact .inl rfl
    | true => exact .inr (g _ hc r ⟨hr, rfl⟩)

/-- After a change at `ks` and its invalidation, a buffer is current if it was before. -/
theorem invalidate_current {ks : List Nat} {rs rs' : List Station} (ho : Ordered rs) (ho' : Ordered rs')
    (same : SameBut ks rs rs') {h : Hold} (hc : h.Current rs) : (h.invalidate ks).Current rs' := by
  cases h with
  | prepared q b =>
    simp only [Hold.invalidate]
    split
    · trivial
    · rename_i g
      have outside : ∀ k, q.covers k = true → k ∉ ks := fun k hk hm => g (List.any_eq_true.mpr ⟨k, hm, hk⟩)
      refine ⟨hc.1.trans (List.map_congr_left fun i hi => ?_), (rangeReady_find ho' q).mpr fun k hk r hr => ?_⟩
      · have covered : q.covers (q.first + i) = true := by
          have := List.mem_range.mp hi
          rw [covers_iff]; omega
        exact (stationEntry_congr (same _ (outside _ covered))).symm
      · exact (rangeReady_find ho q).mp hc.2 k hk r ((same k (outside k hk)).symm.trans hr)
  | _ => exact hc

/-- After a change at `ks` that leaves an OPEN or stale record at each, and its invalidation, a hold waits for such a
record if it did before. -/
theorem invalidate_awaits {ks : List Nat} {rs rs' : List Station} (ho : Ordered rs) (same : SameBut ks rs rs')
    (pending : ∀ k ∈ ks, ∃ r ∈ rs', r.index = k ∧ r.qualifies = false) {h : Hold} (ha : h.Awaits rs) :
    (h.invalidate ks).Awaits rs' := by
  have touched {q : Query} {k : Nat} (hk : k ∈ ks) (hc : q.covers k = true) : rangeReady rs' q = false := by
    obtain ⟨r, hr, rfl, hq⟩ := pending k hk
    exact rangeReady_false.mpr ⟨r, hr, hc, hq⟩
  cases h with
  | prepared q b =>
    simp only [Hold.invalidate]
    split
    · rename_i g
      obtain ⟨k, hk, hc⟩ := List.any_eq_true.mp g
      exact touched hk hc
    · trivial
  | waiting q =>
    obtain ⟨r, hr, hc, hq⟩ := rangeReady_false.mp ha
    by_cases hk : r.index ∈ ks
    · exact touched hk hc
    · have kept := (same _ hk).trans (findStation_of_mem ho hr)
      exact rangeReady_false.mpr ⟨r, (findStation_mem kept).1, hc, hq⟩
  | _ => trivial

/-- A hold that is current does not cover an OPEN or stale record, so its invalidation there leaves it. -/
theorem invalidate_pending {rs : List Station} {h : Hold} (hc : h.Current rs) {r : Station} (hr : r ∈ rs)
    (hq : r.qualifies = false) : h.invalidate [r.index] = h := by
  cases h with
  | prepared q b =>
    have outside : q.covers r.index = false := by
      by_contra g
      rw [Bool.not_eq_false] at g
      have := rangeReady_false.mpr ⟨r, hr, g, hq⟩
      rw [hc.2] at this
      cases this
    simp [Hold.invalidate, outside]
  | _ => rfl

theorem sameBut_putStation {rs : List Station} (h : Ordered rs) (r : Station) :
    SameBut [r.index] rs (putStation r rs) := fun k hk => by
  rw [findStation_putStation h, if_neg (by simpa using hk)]

/-- The records that a crossing of k marks stale or places: k and those above it. -/
theorem sameBut_staleAbove {rs : List Station} (h : Ordered rs) (k : Nat) :
    SameBut (k :: indicesAbove k (staleAbove k rs)) rs (staleAbove k rs) := fun j hj => by
  rcases le_or_gt j k with g | g
  · exact findStation_staleAbove h g
  · have absent : ∀ r ∈ staleAbove k rs, r.index ≠ j := fun r hr e => hj (List.mem_cons_of_mem _ (List.mem_map.mpr
      ⟨r, List.mem_filter.mpr ⟨hr, by simp [e, g]⟩, e⟩))
    rw [findStation_none.mpr absent, eq_comm, findStation_none]
    exact fun r hr e => absent { r with stale := true } (mem_staleAbove.mpr ⟨r, hr, by rw [if_pos (e ▸ g)]⟩) e

theorem SameBut.mono {ks js : List Nat} {rs rs' : List Station} (h : SameBut ks rs rs') (hs : ks ⊆ js) :
    SameBut js rs rs' := fun k hk => h k fun g => hk (hs g)

theorem SameBut.trans {ks : List Nat} {rs rs' rs'' : List Station} (h : SameBut ks rs rs') (g : SameBut ks rs' rs'') :
    SameBut ks rs rs'' := fun k hk => (g k hk).trans (h k hk)

/-- A record placed at an index, and every record above marked stale. -/
theorem sameBut_crossed {rs : List Station} (h : Ordered rs) (r : Station) :
    SameBut (r.index :: indicesAbove r.index (staleAbove r.index (putStation r rs))) rs
      (staleAbove r.index (putStation r rs)) :=
  ((sameBut_putStation h r).mono (List.cons_subset_cons _ (List.nil_subset _))).trans
    (sameBut_staleAbove (ordered_putStation h r) r.index)

theorem crossed_pending {rs : List Station} (h : Ordered rs) {r : Station} (hr : r.qualifies = false) :
    ∀ j ∈ r.index :: indicesAbove r.index (staleAbove r.index (putStation r rs)),
      ∃ q ∈ staleAbove r.index (putStation r rs), q.index = j ∧ q.qualifies = false := by
  intro j hj
  rcases List.mem_cons.mp hj with rfl | hj
  · exact ⟨r, mem_staleAbove.mpr ⟨r, (mem_putStation h r r).mpr (.inl rfl), by rw [if_neg (lt_irrefl _)]⟩, rfl, hr⟩
  · obtain ⟨q, hq, rfl⟩ := List.mem_map.mp hj
    obtain ⟨hq, above⟩ := List.mem_filter.mp hq
    refine ⟨q, hq, rfl, ?_⟩
    obtain ⟨o, -, rfl⟩ := mem_staleAbove.mp hq
    by_cases g : r.index < o.index
    · simp [Station.qualifies, g]
    · simp [g] at above

/-- Whether a law of holds outlives the moves: reviews, and changes with their invalidation. -/
theorem holds_move {I : Inclination → Prop} {Q : List Station → Hold → Prop} {x y : Geometry × StationTable}
    (m : Move I x y) (hx : RecordsLaw x) (hQ : ∀ l, Q x.2.records (x.2.hold l))
    (free : ∀ rs, Q rs .free) (cancelled : ∀ rs f c, Q rs (.cancelled f c))
    (waiting : ∀ rs q, rangeReady rs q = false → Q rs (.waiting q))
    (review : ∀ rs h, Q rs h → Q rs (h.review rs))
    (settle : ∀ rs r m h, Ordered rs → r ∈ rs → r.state = .opened → Q rs h →
      Q (putStation { r with state := .settled, marks := m } rs)
        (h.review (putStation { r with state := .settled, marks := m } rs)))
    (restitch : ∀ rs r h, Ordered rs → Q rs h →
      Q (putStation r rs) ((h.invalidate [r.index]).review (putStation r rs)))
    (cross : ∀ ks rs rs' h, Ordered rs → Ordered rs' → SameBut ks rs rs' →
      (∀ k ∈ ks, ∃ r ∈ rs', r.index = k ∧ r.qualifies = false) → Q rs h → Q rs' (h.invalidate ks)) :
    ∀ l, Q y.2.records (y.2.hold l) := by
  have emptied (t : StationTable) (h : Hold) : Q ([] : List Station) h.cancel := by
    cases h with
    | free => exact free _
    | _ => exact cancelled _ _ _
  cases m with
  | opened g t hg => intro l; cases l <;> exact emptied t _
  | emptied g t => intro l; cases l <;> exact emptied t _
  | extended g t hg hd => exact hQ
  | cleared g t => intro l; exact hQ l
  | sampled g t b hi => intro l; exact hQ l
  | @crossed s k ref hk hp =>
    intro l
    obtain ⟨-, ordered, -⟩ := hx
    simp only [tableOf, crossing_table k ref hp]
    have unready : (crossed k ref s).qualifies = false := rfl
    split
    · have placed := ordered_putStation ordered (crossed k ref s)
      rw [mapHolds_hold]
      exact cross _ s.table.records _ _ ordered (ordered_staleAbove placed k) (sameBut_crossed ordered
        (crossed k ref s)) (crossed_pending ordered unready) (hQ l)
    · rw [mapHolds_hold]
      refine cross [k] s.table.records _ _ ordered (ordered_putStation ordered _)
        (sameBut_putStation ordered { crossed k ref s with stale := true }) ?_ (hQ l)
      intro j hj
      rw [List.mem_singleton] at hj
      exact ⟨_, (mem_putStation ordered _ _).mpr (.inl rfl), hj.symm, rfl⟩
  | settled s k =>
    rcases settle_cases k s with e | ⟨r, m, fx, fy, hr, ho, e⟩ <;> rw [e]
    · exact hQ
    · intro l
      have h := settle s.table.records r m _ hx.2.1 (findStation_mem hr).1 ho (hQ l)
      cases l <;> exact h
  | @restitched s w hw =>
    rcases restitch_cases w s with ⟨-, e⟩ | ⟨r, m, fx, fy, hr, e⟩ <;> rw [e]
    · intro l; exact hQ l
    · intro l
      have h := restitch s.table.records { withOffset s.geometry s.table.records r with stale := false, marks := m } _
        hx.2.1 (hQ l)
      cases l <;> exact h
  | held g t l hq =>
    intro k
    have records : (t.setHold l (.waiting ‹_›)).records = t.records := by cases l <;> rfl
    simp only [records, setHold_hold]
    split
    · exact waiting _ _ hq
    · exact hQ k
  | freed g t l =>
    intro k
    have records : (t.setHold l .free).records = t.records := by cases l <;> rfl
    simp only [records, setHold_hold]
    split
    · exact free _
    · exact hQ k
  | reviewed s =>
    intro l
    have h := review _ _ (hQ l)
    cases l <;> exact h
  | allFreed g t => intro l; cases l <;> exact free _

theorem current_move {I : Inclination → Prop} {x y : Geometry × StationTable} (m : Move I x y) (hx : RecordsLaw x)
    (h : ∀ l, (x.2.hold l).Current x.2.records) : ∀ l, (y.2.hold l).Current y.2.records := by
  refine holds_move m hx h (fun _ => trivial) (fun _ _ _ => trivial) (fun _ _ _ => trivial)
    (fun _ _ => review_current) ?_ ?_ ?_
  · intro rs r m h ordered hr ho hc
    have pending : r.qualifies = false := by simp [Station.qualifies, ho]
    have kept := invalidate_current ordered (ordered_putStation ordered { r with state := .settled, marks := m })
      (sameBut_putStation ordered _) hc
    rw [invalidate_pending hc hr pending] at kept
    exact review_current kept
  · exact fun rs r h ordered hc =>
      review_current (invalidate_current ordered (ordered_putStation ordered r) (sameBut_putStation ordered r) hc)
  · exact fun ks rs rs' h ordered ordered' same _ hc => invalidate_current ordered ordered' same hc

theorem awaits_move {I : Inclination → Prop} {x y : Geometry × StationTable} (m : Move I x y) (hx : RecordsLaw x)
    (h : ∀ l, (x.2.hold l).Awaits x.2.records) : ∀ l, (y.2.hold l).Awaits y.2.records := by
  refine holds_move m hx h (fun _ => trivial) (fun _ _ _ => trivial) (fun _ _ hq => hq)
    (fun _ _ _ => review_awaits _ _) ?_ ?_ ?_
  · exact fun _ _ _ _ _ _ _ _ => review_awaits _ _
  · exact fun _ _ _ _ _ => review_awaits _ _
  · exact fun ks rs rs' h ordered _ same pending ha => invalidate_awaits ordered same pending ha

/-! ## Every step -/

/-- A property of the table that every move keeps, and that the table after COLD has, is kept by every step. -/
theorem step_keeps_table {P : Geometry × StationTable → Prop} {s t : State} (h : step s = .next t) (hP : P (tableOf s))
    (keep : ∀ I x y, Move I x y → P x → P y) (cold : P (tableOf State.reset)) : P (tableOf t) := by
  refine step_keeps (P := fun s => P (tableOf s)) h hP (fun _ _ _ h => h) (fun _ _ h => h) ?_
  intro c s t h hP
  refine exec_keeps (P := fun s => P (tableOf s)) h hP (fun _ _ h => h) (fun _ _ h => h) (fun _ => cold) (fun _ h => h)
    (fun _ _ h => h) ?_ ?_
  · exact fun l p s _ h => moves_keep (rowRule_moves (I := fun _ => True) c l p s) h (keep _)
  · exact fun s _ _ h => moves_keep (eventRule_moves c s) h (keep _)

theorem recordsLaw_reset : RecordsLaw (tableOf State.reset) :=
  ⟨rfl, .nil, fun r hr => (nomatch hr), by decide⟩

/-- Settles O9: each law is kept by every move of the table, given the order of the table before it. -/
theorem stepKeepsTableSummaryAndBufferLaws : Obligations.StepKeepsTableSummaryAndBufferLaws := by
  intro s t hg ht h
  have records := (recordsLaw_iff s).mpr ⟨hg, ht⟩
  obtain ⟨hg', ht'⟩ := (recordsLaw_iff t).mp
    (step_keeps_table h records (fun _ _ _ => recordsLaw_move) recordsLaw_reset)
  refine ⟨hg', ht', fun hs => ?_, fun hb => ?_, fun hw => ?_⟩
  · have summary : SummaryLaw t :=
      step_keeps_table (P := fun x => x.2.summary = summaryOf x.2.records) h hs (fun _ _ _ => summary_move) rfl
    exact ⟨summary, summary_agrees ht'.1 summary⟩
  · rw [bufferLaw_iff] at hb ⊢
    exact (step_keeps_table (P := fun x => RecordsLaw x ∧ ∀ l, (x.2.hold l).Current x.2.records) h ⟨records, hb⟩
      (fun _ _ _ m hx => ⟨recordsLaw_move m hx.1, current_move m hx.1 hx.2⟩)
      ⟨recordsLaw_reset, fun l => by cases l <;> trivial⟩).2
  · rw [waitingLaw_iff] at hw ⊢
    exact (step_keeps_table (P := fun x => RecordsLaw x ∧ ∀ l, (x.2.hold l).Awaits x.2.records) h ⟨records, hw⟩
      (fun _ _ _ m hx => ⟨recordsLaw_move m hx.1, awaits_move m hx.1 hx.2⟩)
      ⟨recordsLaw_reset, fun l => by cases l <;> trivial⟩).2

end Sys2Proof.Machine
end

section
/-! The restitch walker's law (R63, R66) and the bounds of means and offsets (R55, R62) over every step. -/

namespace Sys2Proof.Machine

open Sys2Proof.Safety

/-! ## Offsets in a changed list -/

/-- Below k the two lists have the same indices with the same offsets. -/
def SameBelow (k : Nat) (rs rs' : List Station) : Prop :=
  ∀ j < k, (findStation rs' j).map (fun r => (r.offsetX, r.offsetY)) = (findStation rs j).map fun r => (r.offsetX, r.offsetY)

theorem SameBelow.symm {k : Nat} {rs rs' : List Station} (h : SameBelow k rs rs') : SameBelow k rs' rs :=
  fun j hj => (h j hj).symm

theorem sameBelow_of_sameBut {ks : List Nat} {rs rs' : List Station} (h : SameBut ks rs rs') {k : Nat}
    (hk : ∀ j ∈ ks, k ≤ j) : SameBelow k rs rs' := fun j hj => by
  rw [h j fun g => absurd (hk j g) (not_le.mpr hj)]

/-- A record placed with the offsets that the record of its index has. -/
theorem sameBelow_replaced {rs : List Station} (h : Ordered rs) {r r' : Station} (hr : r ∈ rs) (hi : r'.index = r.index)
    (hx : r'.offsetX = r.offsetX) (hy : r'.offsetY = r.offsetY) (k : Nat) : SameBelow k rs (putStation r' rs) :=
  fun j _ => by
    rw [findStation_putStation h]
    split
    · rename_i e
      rw [e, hi, findStation_of_mem h hr, Option.map_some, Option.map_some, hx, hy]
    · rfl

theorem isPredecessor_of_sameBelow {rs rs' : List Station} (ho : Ordered rs) (ho' : Ordered rs') {k : Nat}
    (same : SameBelow k rs rs') {p' : Station} (h : IsPredecessor rs' k p') :
    ∃ p, IsPredecessor rs k p ∧ p.index = p'.index ∧ p.offsetX = p'.offsetX ∧ p.offsetY = p'.offsetY := by
  obtain ⟨hp', below, greatest⟩ := h
  have found := same p'.index below
  rw [findStation_of_mem ho' hp', Option.map_some] at found
  obtain ⟨p, hp, offsets⟩ := Option.map_eq_some_iff.mp found.symm
  obtain ⟨mem, index⟩ := findStation_mem hp
  obtain ⟨hx, hy⟩ := Prod.mk.inj offsets
  refine ⟨p, ⟨mem, index ▸ below, fun q hq hk => ?_⟩, index, hx, hy⟩
  have there := same q.index hk
  rw [findStation_of_mem ho hq, Option.map_some] at there
  obtain ⟨q', hq', -⟩ := Option.map_eq_some_iff.mp there
  obtain ⟨mem', index'⟩ := findStation_mem hq'
  rw [index, ← index']
  exact greatest q' mem' (index' ▸ hk)

/-- What R61 says of a record depends on the records below it, and on its own index and means. -/
theorem offsetsAgree_congr {g : Geometry} {rs rs' : List Station} (ho : Ordered rs) (ho' : Ordered rs') {r r' : Station}
    (same : SameBelow r.index rs rs') (hi : r'.index = r.index) (mx : r'.meanX = r.meanX) (my : r'.meanY = r.meanY)
    (hx : r'.offsetX = r.offsetX) (hy : r'.offsetY = r.offsetY) (h : OffsetsAgree g rs r) : OffsetsAgree g rs' r' := by
  obtain ⟨first, next, alone⟩ := h
  unfold OffsetsAgree
  rw [hi, mx, my, hx, hy]
  refine ⟨first, fun p' hp' => ?_, fun h0 none => alone h0 fun p hp => ?_⟩
  · obtain ⟨p, hp, index, ox, oy⟩ := isPredecessor_of_sameBelow ho ho' same hp'
    rw [← index, ← ox, ← oy]
    exact next p hp
  · obtain ⟨p', hp', -⟩ := isPredecessor_of_sameBelow ho' ho same.symm hp
    exact none p' hp'

/-! ## The walker -/

/-- The walker's part of its law. -/
def WalkerPlaced (rs : List Station) : Option Walker → Prop
  | none => ∀ r ∈ rs, r.stale = false
  | some w => (∃ r ∈ rs, r.index = w.cursor) ∧ ∀ r ∈ rs, (r.stale = true ↔ w.cursor ≤ r.index)

/-- The walker's law, of the record in force and the table. -/
def Walked (x : Geometry × StationTable) : Prop :=
  WalkerPlaced x.2.records x.2.walker ∧ ∀ r ∈ x.2.records, r.stale = false → OffsetsAgree x.1 x.2.records r

theorem walked_iff (s : State) : Walked (tableOf s) ↔ WalkerLaw s := by
  unfold Walked WalkerLaw WalkerPlaced tableOf
  cases s.table.walker <;> rfl

/-- A walker that starts over at the least index above k, when the records above k are stale and the others are not. -/
theorem walkerPlaced_above {rs : List Station} (h : Ordered rs) {k due : Nat}
    (hs : ∀ r ∈ rs, (r.stale = true ↔ k < r.index)) :
    WalkerPlaced rs ((nextAbove rs k).map fun c => { cursor := c, due := due }) := by
  cases e : nextAbove rs k with
  | none =>
    have top := nextAbove_none.mp e
    exact fun r hr => eq_false_of_ne_true fun g => absurd ((hs r hr).mp g) (not_lt.mpr (top r hr))
  | some c =>
    obtain ⟨present, above, least⟩ := (nextAbove_spec h).mp e
    refine ⟨present, fun r hr => (hs r hr).trans ⟨least r hr, fun g => ?_⟩⟩
    exact lt_of_lt_of_le above g

/-- Settling a record keeps the walker's law: its index, its offsets and its stale mark stay. -/
theorem walked_settled {g : Geometry} {t t' : StationTable} (ho : Ordered t.records) (h : Walked (g, t)) {r r' : Station}
    (hr : r ∈ t.records) (hi : r'.index = r.index) (hs : r'.stale = r.stale) (mx : r'.meanX = r.meanX)
    (my : r'.meanY = r.meanY) (hx : r'.offsetX = r.offsetX) (hy : r'.offsetY = r.offsetY)
    (records : t'.records = putStation r' t.records) (walker : t'.walker = t.walker) : Walked (g, t') := by
  obtain ⟨placed, agree⟩ := h
  have kept : ∀ q ∈ putStation r' t.records, ∃ o ∈ t.records, q.index = o.index ∧ q.stale = o.stale := fun q hq => by
    rcases (mem_putStation ho r' q).mp hq with rfl | ⟨hq, -⟩
    · exact ⟨r, hr, hi, hs⟩
    · exact ⟨q, hq, rfl, rfl⟩
  have there : ∀ o ∈ t.records, ∃ q ∈ putStation r' t.records, q.index = o.index := fun o h => by
    by_cases e : o.index = r'.index
    · exact ⟨r', (mem_putStation ho r' r').mpr (.inl rfl), e.symm⟩
    · exact ⟨o, (mem_putStation ho r' o).mpr (.inr ⟨h, e⟩), rfl⟩
  unfold Walked
  rw [records, walker]
  constructor
  · dsimp only at placed ⊢
    generalize t.walker = w at placed ⊢
    cases w with
    | none =>
      intro q hq
      obtain ⟨o, h, -, stale⟩ := kept q hq
      exact stale.trans (placed o h)
    | some w =>
      obtain ⟨⟨o, h, cursor⟩, above⟩ := placed
      obtain ⟨q, hq, e⟩ := there o h
      refine ⟨⟨q, hq, e.trans cursor⟩, fun q hq => ?_⟩
      obtain ⟨o, h, index, stale⟩ := kept q hq
      rw [index, stale]
      exact above o h
  · intro q hq fresh
    have same (k : Nat) := sameBelow_replaced ho hr hi hx hy k
    rcases (mem_putStation ho r' q).mp hq with rfl | ⟨hq, -⟩
    · exact offsetsAgree_congr ho (ordered_putStation ho _) (same _) hi mx my hx hy (agree r hr (hs ▸ fresh))
    · exact offsetsAgree_congr ho (ordered_putStation ho _) (same _) rfl rfl rfl rfl rfl (agree q hq fresh)

/-- The records that are not stale when the walker stands at c, or is IDLE, agree in a list that differs from k on only,
k being at most c. -/
theorem agree_below {g : Geometry} {rs rs' : List Station} (ho : Ordered rs) (ho' : Ordered rs')
    (agree : ∀ r ∈ rs, r.stale = false → OffsetsAgree g rs r) {q : Station} (hq : q ∈ rs) (fresh : q.stale = false)
    (same : SameBelow q.index rs rs') : OffsetsAgree g rs' q :=
  offsetsAgree_congr ho ho' same rfl rfl rfl rfl rfl (agree q hq fresh)

/-- A record placed with the offsets that R61 gives it agrees in the changed list. -/
theorem agree_placed {g : Geometry} {rs rs' : List Station} (ho : Ordered rs) (ho' : Ordered rs') {r r' : Station}
    (same : SameBelow r.index rs rs') (hi : r'.index = r.index) (mx : r'.meanX = r.meanX) (my : r'.meanY = r.meanY)
    (hx : r'.offsetX = (withOffset g rs r).offsetX) (hy : r'.offsetY = (withOffset g rs r).offsetY) :
    OffsetsAgree g rs' r' :=
  offsetsAgree_congr (r := withOffset g rs r) ho ho' same hi mx my hx hy (withOffset_agrees ho g r)

theorem crossesAhead_iff {w : Option Walker} {k : Nat} : crossesAhead w k = true ↔ ∀ v, w = some v → k < v.cursor := by
  cases w <;> simp [crossesAhead]

/-- Under the law, a record below a point that the walker has not yet reached is not stale. -/
theorem fresh_below {rs : List Station} {w : Option Walker} (h : WalkerPlaced rs w) {q : Station} (hq : q ∈ rs)
    (hw : ∀ v, w = some v → q.index < v.cursor) : q.stale = false := by
  cases w with
  | none => exact h q hq
  | some v => exact eq_false_of_ne_true fun g => absurd ((h.2 q hq).mp g) (not_le.mpr (hw v rfl))

theorem walked_crossed {g : Geometry} {t t' : StationTable} (ho : Ordered t.records) (h : Walked (g, t)) {r : Station}
    {due : Nat} (fresh : r.stale = false) (ahead : crossesAhead t.walker r.index = true)
    (records : t'.records = staleAbove r.index (putStation (withOffset g t.records r) t.records))
    (walker : t'.walker = (nextAbove t'.records r.index).map fun c => { cursor := c, due := due }) : Walked (g, t') := by
  obtain ⟨placed, agree⟩ := h
  have put := ordered_putStation ho (withOffset g t.records r)
  have ordered' : Ordered t'.records := records ▸ ordered_staleAbove put r.index
  have members : ∀ q ∈ t'.records, (r.index < q.index ∧ q.stale = true) ∨ q = withOffset g t.records r
      ∨ (q ∈ t.records ∧ q.index < r.index) := fun q hq => by
    rw [records, mem_staleAbove] at hq
    obtain ⟨o, hm, rfl⟩ := hq
    split
    · rename_i above; exact .inl ⟨above, rfl⟩
    · rename_i above
      rcases (mem_putStation ho _ o).mp hm with rfl | ⟨hm, ne⟩
      · exact .inr (.inl rfl)
      · exact .inr (.inr ⟨hm, lt_of_le_of_ne (not_lt.mp above) ne⟩)
  have young : ∀ q ∈ t.records, q.index < r.index → q.stale = false := fun q hq below =>
    fresh_below placed hq fun v hv => below.trans (crossesAhead_iff.mp ahead v hv)
  have same {k : Nat} (hk : k ≤ r.index) : SameBelow k t.records t'.records := by
    rw [records]
    refine sameBelow_of_sameBut (sameBut_crossed ho (withOffset g t.records r)) fun j hj => hk.trans ?_
    rcases List.mem_cons.mp hj with rfl | hj
    · exact le_rfl
    · obtain ⟨q, hq, rfl⟩ := List.mem_map.mp hj
      exact (of_decide_eq_true (List.mem_filter.mp hq).2).le
  refine ⟨?_, fun q hq hs => ?_⟩
  · dsimp only
    rw [walker]
    refine walkerPlaced_above ordered' fun q hq => ?_
    rcases members q hq with ⟨above, stale⟩ | rfl | ⟨hm, below⟩
    · exact iff_of_true stale above
    · exact iff_of_false (by rw [show (withOffset g t.records r).stale = r.stale from rfl, fresh]; decide) (lt_irrefl _)
    · exact iff_of_false (by rw [young q hm below]; decide) (not_lt.mpr below.le)
  · rcases members q hq with ⟨-, stale⟩ | rfl | ⟨hm, below⟩
    · rw [stale] at hs; cases hs
    · exact agree_placed ho ordered' (same le_rfl) rfl rfl rfl rfl rfl
    · exact agree_below ho ordered' agree hm hs (same below.le)

/-- A record placed stale at or above the cursor. -/
theorem walked_behind {g : Geometry} {t t' : StationTable} (ho : Ordered t.records) (h : Walked (g, t)) {r : Station}
    (stale : r.stale = true) (behind : crossesAhead t.walker r.index = false)
    (records : t'.records = putStation r t.records) (walker : t'.walker = t.walker) : Walked (g, t') := by
  obtain ⟨placed, agree⟩ := h
  have ordered' : Ordered t'.records := records ▸ ordered_putStation ho r
  cases hw : t.walker with
  | none => rw [hw] at behind; cases behind
  | some w =>
    rw [hw] at behind
    have above : w.cursor ≤ r.index := not_lt.mp (of_decide_eq_false behind)
    dsimp only at placed
    rw [hw] at placed
    obtain ⟨⟨o, ho', cursor⟩, all⟩ := placed
    refine ⟨?_, fun q hq hs => ?_⟩
    · dsimp only
      rw [walker, hw, records]
      refine ⟨?_, fun q hq => ?_⟩
      · by_cases e : o.index = r.index
        · exact ⟨r, (mem_putStation ho r r).mpr (.inl rfl), e ▸ cursor⟩
        · exact ⟨o, (mem_putStation ho r o).mpr (.inr ⟨ho', e⟩), cursor⟩
      · rcases (mem_putStation ho r q).mp hq with rfl | ⟨hq, -⟩
        · exact iff_of_true stale above
        · exact all q hq
    · dsimp only at hq ⊢
      rw [records] at hq
      rcases (mem_putStation ho r q).mp hq with rfl | ⟨hq, -⟩
      · rw [stale] at hs; cases hs
      · have below : q.index < w.cursor := not_le.mp fun g => by simp [(all q hq).mpr g] at hs
        refine agree_below ho ordered' agree hq hs ?_
        rw [records]
        exact sameBelow_of_sameBut (sameBut_putStation ho r) fun j hj => by
          rw [List.mem_singleton.mp hj]; exact below.le.trans above

/-- The record of the cursor placed fresh, with the offsets of R61, and the cursor moved on. -/
theorem walked_restitched {g : Geometry} {t t' : StationTable} (ho : Ordered t.records) (h : Walked (g, t)) {r r' : Station}
    {w : Walker} {due : Nat} (hw : t.walker = some w) (hc : r.index = w.cursor)
    (hi : r'.index = r.index) (fresh : r'.stale = false) (mx : r'.meanX = r.meanX) (my : r'.meanY = r.meanY)
    (hx : r'.offsetX = (withOffset g t.records r).offsetX) (hy : r'.offsetY = (withOffset g t.records r).offsetY)
    (records : t'.records = putStation r' t.records)
    (walker : t'.walker = (nextAbove t'.records w.cursor).map fun c => { cursor := c, due := due }) : Walked (g, t') := by
  obtain ⟨placed, agree⟩ := h
  dsimp only at placed
  rw [hw] at placed
  obtain ⟨-, all⟩ := placed
  have ordered' : Ordered t'.records := records ▸ ordered_putStation ho r'
  have same {k : Nat} (hk : k ≤ r.index) : SameBelow k t.records t'.records := by
    rw [records]
    exact sameBelow_of_sameBut (sameBut_putStation ho r') fun j hj => by rw [List.mem_singleton.mp hj, hi]; exact hk
  refine ⟨?_, fun q hq hs => ?_⟩
  · dsimp only
    rw [walker]
    refine walkerPlaced_above ordered' fun q hq => ?_
    rw [records] at hq
    rcases (mem_putStation ho r' q).mp hq with rfl | ⟨hq, ne⟩
    · exact iff_of_false (by simp [fresh]) (by omega)
    · exact (all q hq).trans ⟨fun g => lt_of_le_of_ne g (by omega), le_of_lt⟩
  · dsimp only at hq ⊢
    rw [records] at hq
    rcases (mem_putStation ho r' q).mp hq with rfl | ⟨hq, ne⟩
    · exact agree_placed ho ordered' (same le_rfl) hi mx my hx hy
    · have below : q.index < w.cursor := not_le.mp fun g => by simp [(all q hq).mpr g] at hs
      exact agree_below ho ordered' agree hq hs (same (by omega))

theorem walked_of_table {g g' : Geometry} {t t' : StationTable} (h : Walked (g, t)) (hg : g'.spacing = g.spacing)
    (records : t'.records = t.records) (walker : t'.walker = t.walker) : Walked (g', t') := by
  unfold Walked OffsetsAgree at h ⊢
  dsimp only at h ⊢
  rw [records, walker, hg]
  exact h

theorem walked_empty (g : Geometry) {t : StationTable} (hr : t.records = []) (hw : t.walker = none) :
    Walked (g, t) := by
  unfold Walked
  dsimp only
  rw [hr, hw]
  exact ⟨fun r hr => (nomatch hr), fun r hr => (nomatch hr)⟩

theorem walked_move {I : Inclination → Prop} {x y : Geometry × StationTable} (m : Move I x y) (hx : RecordsLaw x)
    (h : Walked x) : Walked y := by
  obtain ⟨-, ordered, -⟩ := hx
  cases m with
  | opened g t hg => exact walked_empty _ rfl rfl
  | emptied g t => exact walked_empty _ rfl rfl
  | extended g t hg hd => exact walked_of_table h rfl rfl rfl
  | cleared g t => exact walked_of_table h rfl rfl rfl
  | sampled g t b hi => exact walked_of_table h rfl rfl rfl
  | @crossed s k ref hk hp =>
    unfold tableOf
    rw [crossing_geometry, crossing_table k ref hp]
    split
    · rename_i ahead
      exact walked_crossed (r := crossingRecord k ref s) (due := s.clock + 50) ordered h rfl ahead rfl rfl
    · rename_i behind
      exact walked_behind (r := { crossed k ref s with stale := true }) ordered h rfl (eq_false_of_ne_true behind) rfl rfl
  | settled s k =>
    rcases settle_cases k s with e | ⟨r, m, fx, fy, hr, -, e⟩ <;> rw [e]
    · exact h
    · exact walked_settled (r' := { r with state := .settled, marks := m }) ordered h (findStation_mem hr).1 rfl rfl rfl
        rfl rfl rfl rfl rfl
  | @restitched s w hw =>
    rcases restitch_cases w s with ⟨absent, e⟩ | ⟨r, m, fx, fy, hr, e⟩ <;> rw [e]
    · obtain ⟨placed, -⟩ := h
      dsimp only [tableOf] at placed
      rw [hw] at placed
      obtain ⟨⟨o, there, cursor⟩, -⟩ := placed
      exact absurd cursor (findStation_none.mp absent o there)
    · obtain ⟨-, cursor⟩ := findStation_mem hr
      exact walked_restitched (due := s.clock + 50)
        (r' := { withOffset s.geometry s.table.records r with stale := false, marks := m }) ordered h hw cursor rfl
        rfl rfl rfl rfl rfl rfl rfl
  | held g t l hq => exact walked_of_table h rfl (by cases l <;> rfl) (by cases l <;> rfl)
  | freed g t l => exact walked_of_table h rfl (by cases l <;> rfl) (by cases l <;> rfl)
  | reviewed s => exact walked_of_table h rfl rfl rfl
  | allFreed g t => exact walked_of_table h rfl rfl rfl

/-! ## Means and offsets -/

/-- The values of an inclination lie in their channels' range. -/
def Inclination.Measured (i : Inclination) : Prop := InIncl i.ix.value ∧ InIncl i.iy.value ∧ InIncl i.tw.value

/-- The accumulator's sums and count lie in their bounds (R55). -/
def Accumulator.Bounded (a : Accumulator) : Prop :=
  a.count ≤ 4095 ∧ InSum a.count a.sumX ∧ InSum a.count a.sumY ∧ InSum a.count a.sumT

/-- The means and the offsets of a record lie in their bounds (R62). -/
def Station.Bounded (g : Geometry) (r : Station) : Prop :=
  InIncl r.meanX ∧ InIncl r.meanY ∧ InIncl r.meanT ∧ OffsetBound g r.index r.offsetX ∧ OffsetBound g r.index r.offsetY

/-- The offsets' law, of the record in force and the table. -/
def OffsetsBounded (x : Geometry × StationTable) : Prop :=
  (∀ r ∈ x.2.records, r.Bounded x.1) ∧ x.2.acc.Bounded ∧ ∀ i, x.2.lastIncl = some i → i.Measured

/-- The inclination and twist conversions of the scan in flight lie in their range (R17, R21). -/
def ResultsIn (results : List Conversion) : Prop :=
  ∀ x ∈ results, x.channel = .ix ∨ x.channel = .iy ∨ x.channel = .tw → InIncl x.result.value

theorem offsetLaw_iff (s : State) : OffsetLaw s ↔ OffsetsBounded (tableOf s) ∧ ResultsIn s.acq.results := by
  unfold OffsetLaw OffsetsBounded
  exact ⟨fun ⟨h1, h2, h3, h4⟩ => ⟨⟨h1, h2, h3⟩, h4⟩, fun ⟨⟨h1, h2, h3⟩, h4⟩ => ⟨h1, h2, h3, h4⟩⟩

theorem resultsIn_nil : ResultsIn [] := by simp [ResultsIn]

theorem offsetsBounded_reset : OffsetsBounded (tableOf State.reset) := by
  simp [OffsetsBounded, tableOf, State.reset, Accumulator.Bounded, InSum]

theorem sum_inSum {xs : List Int} (h : ∀ x ∈ xs, InIncl x) : InSum xs.length xs.sum := by
  induction xs with
  | nil => simp [InSum]
  | cons x xs ih =>
    have tail := ih fun y hy => h y (List.mem_cons_of_mem _ hy)
    have head := h x List.mem_cons_self
    unfold InSum InIncl at *
    rw [List.sum_cons, List.length_cons]
    push_cast
    omega

theorem roundAway_inIncl {n : Nat} {x : Int} (hn : n ≠ 0) (h : InSum n x) : InIncl (roundAway x n) :=
  roundAway_mem (by omega) h.1 h.2 (by decide) (by decide)

/-- The mean of a channel whose conversions lie in the range lies in it. -/
theorem scanValue_inIncl {results : List Conversion} {c : Channel} {v : ScanValue} (h : some v = scanValue results c)
    (hr : ∀ x ∈ results, x.channel = c → InIncl x.result.value) : InIncl v.value := by
  unfold scanValue at h
  dsimp only at h
  split at h
  · cases h
  · rename_i some
    rw [Option.some.inj h]
    refine roundAway_inIncl ?_ (sum_inSum fun x hx => ?_)
    · simpa [List.isEmpty_iff] using some
    · obtain ⟨y, hy, rfl⟩ := List.mem_map.mp hx
      obtain ⟨hy, hc⟩ := List.mem_filter.mp hy
      exact hr y hy (of_decide_eq_true hc)

theorem brings_measured {results : List Conversion} (hr : ResultsIn results) {i : Inclination} (h : Brings results i) :
    i.Measured := by
  obtain ⟨ix, iy, tw⟩ := h
  exact ⟨scanValue_inIncl ix fun x hx hc => hr x hx (.inl hc), scanValue_inIncl iy fun x hx hc => hr x hx (.inr (.inl hc)),
    scanValue_inIncl tw fun x hx hc => hr x hx (.inr (.inr hc))⟩

theorem convert_inIncl (z raw : Int) {c : Channel} (h : c = .ix ∨ c = .iy ∨ c = .tw) : InIncl (convert z c raw).value := by
  rcases h with rfl | rfl | rfl <;> exact clamp_mem (by decide) _

theorem resultsIn_append {results : List Conversion} (hr : ResultsIn results) (z raw : Int) (c : Channel) :
    ResultsIn (results ++ [{ channel := c, result := convert z c raw }]) := by
  intro x hx hc
  rcases List.mem_append.mp hx with hx | hx
  · exact hr x hx hc
  · rw [List.mem_singleton.mp hx] at hc ⊢
    exact convert_inIncl z raw hc

theorem ending_measured {results : List Conversion} (hr : ResultsIn results) {i : Inclination} (h : Ending results i) :
    i.Measured := by
  rcases h with h | ⟨z, c, raw, h⟩
  · exact brings_measured hr h
  · exact brings_measured (resultsIn_append hr z raw c) h

theorem add_bounded {a : Accumulator} (h : a.Bounded) {i : Inclination} (hi : i.Measured) : (a.add i).Bounded := by
  obtain ⟨count, x, y, t⟩ := h
  obtain ⟨ix, iy, it⟩ := hi
  obtain ⟨x', xh⟩ := add_inSum x ix
  obtain ⟨y', yh⟩ := add_inSum y iy
  obtain ⟨t', th⟩ := add_inSum t it
  unfold Accumulator.add
  dsimp only
  split
  · rename_i full
    exact ⟨(by omega : 2048 ≤ 4095), xh full, yh full, th full⟩
  · rename_i room
    exact ⟨by dsimp only; omega, x', y', t'⟩

theorem means_inIncl {t : StationTable} (ha : t.acc.Bounded) (hl : ∀ i, t.lastIncl = some i → i.Measured) :
    InIncl t.means.1.1 ∧ InIncl t.means.1.2.1 ∧ InIncl t.means.1.2.2 := by
  obtain ⟨-, x, y, z⟩ := ha
  unfold StationTable.means
  split
  · rename_i some
    exact ⟨roundAway_inIncl some x, roundAway_inIncl some y, roundAway_inIncl some z⟩
  · split
    · rename_i i e
      exact hl i e
    · simp [InIncl]

/-- The depth of a station of the table below station 0. -/
theorem spacing_mul_le {g : Geometry} (h : firstBadField g = none) {k : Nat} (hk : k < g.stations) :
    0 ≤ g.spacing ∧ g.spacing * k ≤ 200000 := by
  have spacing : 100 ≤ g.spacing ∧ g.spacing ≤ 500 := by
    simp only [firstBadField, ite_some_eq_none] at h
    exact outside_iff.mp h.1
  obtain ⟨deep, span, -⟩ := badDesign_iff.mp (badDesign_of_check h)
  unfold Geometry.stations at hk
  have quotient : (k : Int) ≤ (g.design - g.start) / g.spacing := by
    have := Int.ediv_nonneg (show 0 ≤ g.design - g.start by omega) (show 0 ≤ g.spacing by omega)
    omega
  have product := Int.mul_ediv_self_le (x := g.design - g.start) (k := g.spacing) (by omega)
  refine ⟨by omega, ?_⟩
  calc g.spacing * k ≤ g.spacing * ((g.design - g.start) / g.spacing) :=
        mul_le_mul_of_nonneg_left quotient (by omega)
    _ ≤ 200000 := by omega

/-- The offsets that R61 gives a record keep the bound. -/
theorem withOffset_bounded {g : Geometry} (h : firstBadField g = none) {rs : List Station} (ho : Ordered rs)
    (hb : ∀ r ∈ rs, r.Bounded g) {r : Station} (hk : r.index < g.stations) (mx : InIncl r.meanX) (my : InIncl r.meanY)
    (mt : InIncl r.meanT) : (withOffset g rs r).Bounded g := by
  obtain ⟨spacing, depth⟩ := spacing_mul_le h hk
  have pred : ∀ p, predecessor rs r.index = some p → p ∈ rs ∧ p.index < r.index := fun p hp => by
    obtain ⟨mem, below, -⟩ := (predecessor_spec ho).mp hp
    exact ⟨mem, below⟩
  refine ⟨mx, my, mt, offsetFrom_bound spacing depth mx fun p hp => ?_, offsetFrom_bound spacing depth my fun p hp => ?_⟩
  · obtain ⟨mem, below⟩ := pred p hp
    exact ⟨below, (hb p mem).2.2.2.1⟩
  · obtain ⟨mem, below⟩ := pred p hp
    exact ⟨below, (hb p mem).2.2.2.2⟩

theorem bounded_putStation {g : Geometry} {rs : List Station} (ho : Ordered rs) (hb : ∀ r ∈ rs, r.Bounded g) {r : Station}
    (hr : r.Bounded g) : ∀ q ∈ putStation r rs, q.Bounded g := fun q hq => by
  rcases (mem_putStation ho r q).mp hq with rfl | ⟨hq, -⟩
  · exact hr
  · exact hb q hq

theorem bounded_staleAbove {g : Geometry} {rs : List Station} (hb : ∀ r ∈ rs, r.Bounded g) (k : Nat) :
    ∀ q ∈ staleAbove k rs, q.Bounded g := fun q hq => by
  obtain ⟨o, ho, rfl⟩ := mem_staleAbove.mp hq
  split <;> exact hb o ho

theorem empty_bounded : Accumulator.Bounded {} := by simp [Accumulator.Bounded, InSum]

theorem offsets_move {I : Inclination → Prop} (hI : ∀ i, I i → i.Measured) {x y : Geometry × StationTable}
    (m : Move I x y) (hx : RecordsLaw x) (h : OffsetsBounded x) : OffsetsBounded y := by
  obtain ⟨checked, ordered, within, -⟩ := hx
  obtain ⟨records, acc, last⟩ := h
  cases m with
  | opened g t hg => exact ⟨fun r hr => (nomatch hr), empty_bounded, last⟩
  | emptied g t => exact ⟨fun r hr => (nomatch hr), empty_bounded, last⟩
  | extended g t hg hd => exact ⟨records, acc, last⟩
  | cleared g t => exact ⟨records, empty_bounded, last⟩
  | sampled g t b hi =>
    refine ⟨records, ?_, fun j e => Option.some.inj e ▸ hI _ hi⟩
    dsimp only
    split
    · exact add_bounded acc (hI _ hi)
    · exact acc
  | @crossed s k ref hk hp =>
    obtain ⟨mx, my, mt⟩ := means_inIncl acc last
    have placed : (crossed k ref s).Bounded s.geometry :=
      withOffset_bounded (r := crossingRecord k ref s) checked ordered records hk mx my mt
    unfold tableOf
    rw [crossing_geometry, crossing_table k ref hp]
    split
    · exact ⟨bounded_staleAbove (bounded_putStation ordered records placed) k, empty_bounded, last⟩
    · exact ⟨bounded_putStation ordered records (r := { crossed k ref s with stale := true }) placed, empty_bounded, last⟩
  | settled s k =>
    rcases settle_cases k s with e | ⟨r, m, fx, fy, hr, -, e⟩ <;> rw [e]
    · exact ⟨records, acc, last⟩
    · exact ⟨bounded_putStation ordered records (r := { r with state := .settled, marks := m })
        (records r (findStation_mem hr).1), acc, last⟩
  | @restitched s w hw =>
    rcases restitch_cases w s with ⟨-, e⟩ | ⟨r, m, fx, fy, hr, e⟩ <;> rw [e]
    · exact ⟨records, acc, last⟩
    · obtain ⟨there, -⟩ := findStation_mem hr
      obtain ⟨mx, my, mt, -⟩ := records r there
      have placed := withOffset_bounded checked ordered records (within r there) mx my mt
      exact ⟨bounded_putStation ordered records (r := { withOffset s.geometry s.table.records r with
        stale := false, marks := m }) placed, acc, last⟩
  | held g t l hq => cases l <;> exact ⟨records, acc, last⟩
  | freed g t l => cases l <;> exact ⟨records, acc, last⟩
  | reviewed s => exact ⟨records, acc, last⟩
  | allFreed g t => exact ⟨records, acc, last⟩

/-! ## The conversions of the scan in flight -/

theorem afterScan_results (s : State) : (afterScan s).acq.results = [] := by
  unfold afterScan
  dsimp only
  repeat' split
  all_goals simp [toOff, toWaiting, startScan, State.setAcq]

theorem acceptAcquisition_results (q : AcqRequest) (s : State) :
    (acceptAcquisition q s).acq.results = s.acq.results ∨ (acceptAcquisition q s).acq.results = [] := by
  have left (u : State) : (leaveOff u).acq.results = [] := by
    unfold leaveOff
    dsimp only
    split <;> simp [loadScanTimer, startScan, State.setAcq]
  unfold acceptAcquisition
  dsimp only
  split
  · exact .inr (by simp [toOff, State.setAcq])
  · exact .inr (left _)
  · exact .inr (left _)
  · left; split <;> rfl

theorem scanExpiry_results (s : State) :
    (scanExpiry s).acq.results = s.acq.results ∨ (scanExpiry s).acq.results = [] := by
  unfold scanExpiry
  dsimp only
  split
  · right
    unfold startAtExpiry
    dsimp only
    split <;> simp [toOff, startScan, State.setAcq]
  · exact .inl rfl
  · exact .inl rfl
  · exact .inl rfl

theorem rowRule_results (c : Instr) (l : Link) (p : List Byte) {s : State} (h : ResultsIn s.acq.results)
    (hr : requestRow c ≠ none) : ResultsIn (rowRule c l p s).1.acq.results := by
  by_cases ha : Part.acq ∈ touched c
  · cases c with
    | setAcquisition =>
      simp only [rowRule, setAcquisitionBody]
      split
      · exact h
      · rename_i q _
        rcases acceptAcquisition_results q s with e | e <;> rw [e]
        · exact h
        · exact resultsIn_nil
    | _ => first | exact absurd rfl hr | exact absurd ha (by decide)
  · rw [show (rowRule c l p s).1.acq = s.acq from rowRule_touches c l p s .acq ha]
    exact h

theorem conversionDone_results {s : State} (h : ResultsIn s.acq.results) (raw : Int) :
    ResultsIn (conversionDone raw s).acq.results := by
  have ended (u : State) : ResultsIn (scanCompletion u).acq.results := by
    unfold scanCompletion
    rw [afterScan_results]
    exact resultsIn_nil
  cases hc : s.acq.activeList[s.acq.results.length]? with
  | none => rw [conversionDone_of_end hc]; exact ended s
  | some c =>
    rw [conversionDone_of_entry hc]
    split
    · rw [converted_results]; exact resultsIn_append h _ _ _
    · exact ended _

theorem eventRule_results (c : Instr) {s : State} (h : ResultsIn s.acq.results) (he : eventTime s c ≠ none) :
    ResultsIn (eventRule c s).acq.results := by
  by_cases ha : Part.acq ∈ touched c
  · cases c with
    | warm => simp [eventRule, warmState, warmAcq, resultsIn_nil]
    | scanTimerExpiry =>
      rcases scanExpiry_results s with e | e <;> rw [eventRule, e]
      · exact h
      · exact resultsIn_nil
    | conversionCompletion raw => exact conversionDone_results h raw
    | _ => first | exact absurd rfl he | exact absurd ha (by simp [touched])
  · rw [show (eventRule c s).acq = s.acq from eventRule_touches c s .acq ha]
    exact h

/-! ## Every step -/

/-- The two laws that the offsets' law needs and gives at every command. -/
def OffsetsKept (s : State) : Prop := (RecordsLaw (tableOf s) ∧ OffsetsBounded (tableOf s)) ∧ ResultsIn s.acq.results

theorem offsetsKept_moves {I : Inclination → Prop} (hI : ∀ i, I i → i.Measured) {s t : State} (h : Moves I s t)
    (hs : RecordsLaw (tableOf s) ∧ OffsetsBounded (tableOf s)) : RecordsLaw (tableOf t) ∧ OffsetsBounded (tableOf t) :=
  moves_keep (P := fun x => RecordsLaw x ∧ OffsetsBounded x) h hs fun _ _ m hx =>
    ⟨recordsLaw_move m hx.1, offsets_move hI m hx.1 hx.2⟩

theorem step_keeps_offsets {s t : State} (h : step s = .next t) (hs : OffsetsKept s) : OffsetsKept t := by
  refine step_keeps (P := OffsetsKept) h hs (fun _ _ _ h => h) (fun _ _ h => h) ?_
  intro c s t h hP
  refine exec_keeps (P := OffsetsKept) h hP (fun _ _ h => h) (fun _ _ h => h) (fun _ => ?_) (fun _ h => h)
    (fun _ _ h => h) ?_ ?_
  · exact ⟨⟨recordsLaw_reset, offsetsBounded_reset⟩, resultsIn_nil⟩
  · exact fun l p s hr h => ⟨offsetsKept_moves (fun _ => False.elim) (rowRule_moves (I := fun _ => False) c l p s) h.1,
      rowRule_results c l p h.2 hr⟩
  · exact fun s _ he h => ⟨offsetsKept_moves (fun _ => ending_measured h.2) (eventRule_moves c s) h.1,
      eventRule_results c h.2 he⟩

/-- Settles O10: both laws are kept by every move of the table; that the means stay in their range rests on the
conversions of the scan in flight. -/
theorem stepKeepsWalkerLaw : Obligations.StepKeepsWalkerLaw := by
  intro s t hg ht h
  have records := (recordsLaw_iff s).mpr ⟨hg, ht⟩
  refine ⟨fun hw => ?_, fun ho => ?_⟩
  · rw [← walked_iff] at hw ⊢
    exact (step_keeps_table (P := fun x => RecordsLaw x ∧ Walked x) h ⟨records, hw⟩
      (fun _ _ _ m hx => ⟨recordsLaw_move m hx.1, walked_move m hx.1 hx.2⟩)
      ⟨recordsLaw_reset, walked_empty _ rfl rfl⟩).2
  · rw [offsetLaw_iff] at ho ⊢
    obtain ⟨⟨-, bounded⟩, results⟩ := step_keeps_offsets h ⟨⟨records, ho.1⟩, ho.2⟩
    exact ⟨bounded, results⟩

end Sys2Proof.Machine
end

section
/-! The archive's law (R175, R177 to R179) over every step. -/

namespace Sys2Proof.Machine

open Sys2Proof.Safety

/-! ## The law by the engine -/

/-- The slot that the close write in flight is on. -/
def Engine.writes : Engine → Option Nat
  | .reserved i | .programming i _ _ _ => some i
  | .idle | .erase _ _ | .wipe _ _ _ => none

/-- The slot that the erase in flight is on. -/
def Engine.erases : Engine → Option Nat
  | .erase i _ | .wipe i _ _ => some i
  | .idle | .reserved _ | .programming _ _ _ _ => none

/-- The slots that a wipe has still to erase come after the one being erased. -/
def Engine.Ascends : Engine → Prop
  | .wipe i rest _ => (i :: rest).Pairwise (· < ·) ∧ ∀ j ∈ i :: rest, j < 8
  | _ => True

/-- The walker is not IDLE while a slot is reserved only. -/
def Engine.Awaits (w : Option Walker) : Engine → Prop
  | .reserved _ => w.isSome
  | _ => True

/-- A slot state fits the operation in flight. -/
def Fits (e : Engine) (i : Nat) (st : SlotState) : Prop :=
  (st = .writing ↔ e.writes = some i) ∧ (st = .erasing ↔ e.erases = some i)

theorem writes_iff (e : Engine) (i : Nat) :
    e.writes = some i ↔ (e = .reserved i ∨ ∃ p im due, e = .programming i p im due) := by
  cases e <;> simp [Engine.writes]

theorem erases_iff (e : Engine) (i : Nat) :
    e.erases = some i ↔ ((∃ due, e = .erase i due) ∨ ∃ rest due, e = .wipe i rest due) := by
  cases e <;> simp [Engine.erases]

theorem writes_isSome_iff (e : Engine) :
    e.writes.isSome ↔ ((∃ i, e = .reserved i) ∨ ∃ i p im due, e = .programming i p im due) := by
  cases e <;> simp [Engine.writes]

theorem ascends_iff (e : Engine) : e.Ascends ↔
    ∀ i rest due, e = .wipe i rest due → (i :: rest).Pairwise (· < ·) ∧ ∀ j ∈ i :: rest, j < 8 := by
  cases e with
  | wipe i rest due => exact ⟨fun h i' r' d' g => by cases g; exact h, fun h => h i rest due rfl⟩
  | _ => exact iff_of_true trivial nofun

theorem awaits_iff (e : Engine) (w : Option Walker) : e.Awaits w ↔ ∀ i, e = .reserved i → w.isSome := by
  cases e with
  | reserved i => exact ⟨fun h _ _ => h, fun h => h i rfl⟩
  | _ => exact iff_of_true trivial nofun

theorem archiveLaw_iff (s : State) : ArchiveLaw s ↔ s.archive.slots.length = 8
    ∧ (∀ i < 8, Fits s.archive.engine i (s.slot i).state) ∧ (s.panel = .closing ↔ s.archive.engine.writes.isSome)
    ∧ s.archive.engine.Ascends ∧ s.archive.engine.Awaits s.table.walker := by
  unfold ArchiveLaw Fits
  simp only [writes_iff, erases_iff, writes_isSome_iff, ascends_iff, awaits_iff]
  exact ⟨fun ⟨len, w, r, rest⟩ => ⟨len, fun i hi => ⟨w i hi, r i hi⟩, rest⟩,
    fun ⟨len, fits, rest⟩ => ⟨len, fun i hi => (fits i hi).1, fun i hi => (fits i hi).2, rest⟩⟩

/-- A state with the slots, the engine, the panel and the walker of another has its law. -/
theorem archiveLaw_congr {s t : State} (h : ArchiveLaw s) (slots : t.archive = s.archive) (panel : t.panel = s.panel)
    (walker : t.archive.engine.Awaits t.table.walker) : ArchiveLaw t := by
  obtain ⟨len, fits, closing, asc, -⟩ := (archiveLaw_iff s).mp h
  refine (archiveLaw_iff t).mpr ⟨slots ▸ len, fun i hi => ?_, ?_, slots ▸ asc, walker⟩
  · unfold State.slot; rw [slots]; exact fits i hi
  · rw [slots, panel]; exact closing

theorem awaits_of_writes {e : Engine} (h : e.writes = none) (w : Option Walker) : e.Awaits w := by
  cases e with
  | reserved i => cases h
  | _ => trivial

/-- One slot and the engine change: the slot fits the new engine, and the new engine is on no other slot but where the
old one was. -/
theorem archiveLaw_set {s t : State} (h : ArchiveLaw s) {j : Nat} {x : Slot} {e : Engine}
    (slots : t.archive = { slots := s.archive.slots.set j x, engine := e }) (fit : j < 8 → Fits e j x.state)
    (writes : ∀ i < 8, i ≠ j → (e.writes = some i ↔ s.archive.engine.writes = some i))
    (erases : ∀ i < 8, i ≠ j → (e.erases = some i ↔ s.archive.engine.erases = some i))
    (closing : t.panel = .closing ↔ e.writes.isSome) (asc : e.Ascends) (walker : e.Awaits t.table.walker) :
    ArchiveLaw t := by
  obtain ⟨len, fits, -⟩ := (archiveLaw_iff s).mp h
  have engine : t.archive.engine = e := by rw [slots]
  refine (archiveLaw_iff t).mpr ⟨by rw [slots, List.length_set, len], fun i hi => ?_, engine ▸ closing, engine ▸ asc,
    engine ▸ walker⟩
  have placed : t.slot i = (s.setSlot j x).slot i := by unfold State.slot; rw [slots]; rfl
  rw [engine, placed]
  by_cases g : i = j
  · subst g
    rw [setSlot_slot s (len ▸ hi), if_pos rfl]
    exact fit hi
  · have kept : (s.setSlot j x).slot i = s.slot i := by
      simp [State.setSlot, State.slot, List.getD_eq_getElem?_getD, List.getElem?_set_ne (Ne.symm g)]
    rw [kept]
    obtain ⟨w, r⟩ := fits i hi
    exact ⟨w.trans (writes i hi g).symm, r.trans (erases i hi g).symm⟩

/-- A slot takes other contents in the same state. -/
theorem archiveLaw_setSlot {s : State} (h : ArchiveLaw s) {j : Nat} {x : Slot} (hx : x.state = (s.slot j).state) :
    ArchiveLaw (s.setSlot j x) := by
  obtain ⟨-, fits, closing, asc, walker⟩ := (archiveLaw_iff s).mp h
  exact archiveLaw_set h (e := s.archive.engine) rfl (fun hj => hx ▸ fits j hj) (fun _ _ _ => .rfl) (fun _ _ _ => .rfl)
    closing asc walker

theorem archiveBusy_false {s : State} (h : ¬s.archiveBusy = true) : s.archive.engine = .idle := by
  simpa [State.archiveBusy] using h

theorem emptySlot_spec {s : State} {i : Nat} (h : s.emptySlot = some i) :
    i < s.archive.slots.length ∧ (s.slot i).state = .empty := by
  obtain ⟨hi, he, -⟩ := List.findIdx?_eq_some_iff_getElem.mp h
  refine ⟨hi, ?_⟩
  unfold State.slot
  rw [List.getD_eq_getElem?_getD, List.getElem?_eq_getElem hi]
  exact of_decide_eq_true he

/-! ## The operations -/

/-- The end of the walk stage: with the walker IDLE a reserved slot begins to be written. -/
theorem endWalkStage_archiveLaw {s : State} (h : s.archive.slots.length = 8
    ∧ (∀ i < 8, Fits s.archive.engine i (s.slot i).state) ∧ (s.panel = .closing ↔ s.archive.engine.writes.isSome)
    ∧ s.archive.engine.Ascends) : ArchiveLaw (endWalkStage s) := by
  obtain ⟨len, fits, closing, asc⟩ := h
  unfold endWalkStage
  split
  · rename_i i _ he hw
    have settled := settleEach_touches (openStations s.table.records) s
    have archive : (settleEach (openStations s.table.records) s).archive = s.archive := settled .archive (by decide)
    have panel : (settleEach (openStations s.table.records) s).panel = s.panel := settled .panel (by decide)
    rw [he] at fits closing
    refine (archiveLaw_iff _).mpr ⟨?_, fun j hj => ?_, ?_, trivial, trivial⟩
    · rw [← len, ← archive]; rfl
    · have fit := fits j hj
      unfold State.slot at fit ⊢
      rw [← archive] at fit
      exact fit
    · exact panel ▸ closing
  · rename_i other
    refine (archiveLaw_iff s).mpr ⟨len, fits, closing, asc, ?_⟩
    cases he : s.archive.engine with
    | reserved i =>
      cases hw : s.table.walker with
      | none => exact (other i he hw).elim
      | some w => rfl
    | _ => trivial

theorem closePanelBody_archiveLaw {s : State} (h : ArchiveLaw s) (l : Link) : ArchiveLaw (closePanelBody l s).1 := by
  obtain ⟨len, fits, -⟩ := (archiveLaw_iff s).mp h
  unfold closePanelBody
  split
  · exact h
  · split
    · exact h
    · rename_i busy
      have idle := archiveBusy_false busy
      split
      · exact h
      · rename_i i hi
        have archive : (setPanel .closing ((s.setSlot i (reservedSlot s.geometry)).setEngine (.reserved i))).archive
            = { (s.setSlot i (reservedSlot s.geometry)).archive with engine := .reserved i } := by
          simp [setPanel, State.setEngine]
        have panel : (setPanel .closing ((s.setSlot i (reservedSlot s.geometry)).setEngine (.reserved i))).panel
            = .closing := by simp [setPanel]
        refine endWalkStage_archiveLaw ⟨?_, fun j hj => ?_, ?_, by rw [archive]; trivial⟩
        · rw [archive]; simp [len]
        rotate_left
        · rw [archive]; exact iff_of_true panel rfl
        · unfold State.slot
          rw [archive]
          change Fits (.reserved i) j ((s.setSlot i (reservedSlot s.geometry)).slot j).state
          rw [setSlot_slot s (emptySlot_spec hi).1]
          have fit := fits j hj
          rw [idle] at fit
          split
          · rename_i e
            subst e
            exact ⟨iff_of_true rfl rfl, iff_of_false nofun nofun⟩
          · rename_i e
            exact ⟨iff_of_false (fun g => nomatch fit.1.mp g) (fun g => e (Option.some.inj g).symm),
              iff_of_false (fun g => nomatch fit.2.mp g) nofun⟩

/-- The engine is IDLE: no slot is WRITING or ERASING and the panel is not CLOSING. -/
theorem archiveLaw_idle {s : State} (h : ArchiveLaw s) (he : s.archive.engine = .idle) :
    (∀ i < 8, (s.slot i).state ≠ .writing ∧ (s.slot i).state ≠ .erasing) ∧ s.panel ≠ .closing := by
  obtain ⟨-, fits, closing, -⟩ := (archiveLaw_iff s).mp h
  rw [he] at fits closing
  refine ⟨fun i hi => ⟨fun g => ?_, fun g => ?_⟩, fun g => ?_⟩
  · cases (fits i hi).1.mp g
  · cases (fits i hi).2.mp g
  · cases closing.mp g

/-- The write in flight ends: its slot leaves WRITING, the engine is IDLE, the panel CLOSED. -/
theorem closeWriteEnd_archiveLaw {s u : State} (h : ArchiveLaw s) {i page due : Nat} {image : List (List Byte)} {x : Slot}
    (he : s.archive.engine = .programming i page image due) (hu : u.archive.slots = s.archive.slots.set i x)
    (hx : x.state ≠ .writing ∧ x.state ≠ .erasing) : ArchiveLaw (closeWriteEnd u) := by
  have archive : (closeWriteEnd u).archive = { slots := u.archive.slots, engine := .idle } := by
    simp [closeWriteEnd, setPanel, State.setEngine]
  have panel : (closeWriteEnd u).panel = .closed := by simp [closeWriteEnd, setPanel]
  refine archiveLaw_set h (j := i) (x := x) (e := .idle) ?_ (fun _ => ?_) (fun k _ g => ?_) (fun k _ _ => ?_)
    (iff_of_false (by rw [panel]; nofun) nofun) trivial trivial
  · rw [archive, hu]
  · exact ⟨iff_of_false hx.1 nofun, iff_of_false hx.2 nofun⟩
  · rw [he]; exact iff_of_false nofun fun e => g (Option.some.inj e).symm
  · rw [he]; exact .rfl

theorem pageDone_archiveLaw {s : State} (h : ArchiveLaw s) (v : Bool) : ArchiveLaw (pageDone v s) := by
  obtain ⟨-, fits, closing, -⟩ := (archiveLaw_iff s).mp h
  unfold pageDone
  split
  · rename_i i page image due he
    rw [he] at fits closing
    dsimp only
    split
    · split
      · refine archiveLaw_set h (j := i) (x := { s.slot i with pages := (s.slot i).pages ++ [image.getD page []] })
          (e := .programming i (page + 1) image (s.inMs 5)) rfl (fun hi => fits i hi) (fun k _ _ => ?_) (fun k _ _ => ?_)
          closing trivial trivial
        · rw [he]; exact .rfl
        · rw [he]; exact .rfl
      · exact closeWriteEnd_archiveLaw h he rfl ⟨nofun, nofun⟩
    · exact closeWriteEnd_archiveLaw h he rfl ⟨nofun, nofun⟩
  all_goals exact h

/-- With no operation that writes in flight, the erase of a slot starts. -/
theorem eraseSlot_archiveLaw {s : State} (h : ArchiveLaw s) (idle : s.archive.engine = .idle) {e : Engine} {i : Nat}
    (he : e.erases = some i) (hw : e.writes = none) (asc : e.Ascends) : ArchiveLaw ((eraseSlot i s).setEngine e) := by
  refine archiveLaw_set h (j := i) (x := { s.slot i with state := .erasing }) (e := e) rfl (fun _ => ?_) (fun k _ g => ?_)
    (fun k _ g => ?_) ?_ asc (awaits_of_writes hw _)
  · exact ⟨iff_of_false nofun (by rw [hw]; nofun), iff_of_true rfl he⟩
  · rw [hw, idle]; exact .rfl
  · rw [he, idle]; exact iff_of_false (fun e => g (Option.some.inj e).symm) nofun
  · rw [hw]
    exact iff_of_false (archiveLaw_idle h idle).2 nofun

/-- The erase in flight ends: its slot leaves ERASING, the engine is IDLE. -/
theorem eraseEnd_archiveLaw {s : State} (h : ArchiveLaw s) {i : Nat} (he : s.archive.engine.erases = some i)
    (blank : Bool) : ArchiveLaw ((eraseEnd i blank s).setEngine .idle) := by
  have writes : s.archive.engine.writes = none := by
    generalize s.archive.engine = e at he
    cases e <;> first | rfl | cases he
  have notClosing : s.panel ≠ .closing := fun g => by
    have := ((archiveLaw_iff s).mp h).2.2.1.mp g
    rw [writes] at this
    cases this
  have ended {t : State} {x : Slot} (hx : x.state ≠ .writing ∧ x.state ≠ .erasing)
      (ht : t.archive = { slots := s.archive.slots.set i x, engine := .idle }) (hp : t.panel = s.panel) : ArchiveLaw t := by
    refine archiveLaw_set h ht (fun _ => ?_) (fun k _ _ => ?_) (fun k _ g => ?_) ?_ trivial trivial
    · exact ⟨iff_of_false hx.1 nofun, iff_of_false hx.2 nofun⟩
    · rw [writes]; exact .rfl
    · rw [he]; exact iff_of_false nofun fun e => g (Option.some.inj e).symm
    · rw [hp]; exact iff_of_false notClosing nofun
  unfold eraseEnd
  split
  · exact ended (x := {}) ⟨nofun, nofun⟩ rfl rfl
  · exact ended (x := { s.slot i with state := .faulty }) ⟨nofun, nofun⟩ rfl rfl

theorem wipeNext_archiveLaw {s u : State} (h : ArchiveLaw (u.setEngine .idle)) (hs : u = s) {rest : List Nat}
    (asc : rest.Pairwise (· < ·)) (within : ∀ j ∈ rest, j < 8) : ArchiveLaw (wipeNext rest s) := by
  subst hs
  cases rest with
  | nil => exact h
  | cons i is => exact eraseSlot_archiveLaw h rfl (e := .wipe i is (u.inMs 400)) rfl rfl ⟨asc, within⟩

theorem eraseDone_archiveLaw {s : State} (h : ArchiveLaw s) (blank : Bool) : ArchiveLaw (eraseDone blank s) := by
  obtain ⟨-, -, -, asc, -⟩ := (archiveLaw_iff s).mp h
  unfold eraseDone
  split
  · rename_i i due he
    exact eraseEnd_archiveLaw h (by rw [he]; rfl) blank
  · rename_i i rest due he
    rw [he] at asc
    obtain ⟨ascending, within⟩ := asc
    exact wipeNext_archiveLaw (eraseEnd_archiveLaw h (by rw [he]; rfl) blank) rfl (List.pairwise_cons.mp ascending).2
      fun j hj => within j (List.mem_cons_of_mem _ hj)
  all_goals exact h

theorem eraseSlotBody_archiveLaw {s : State} (h : ArchiveLaw s) (l : Link) (p : List Byte) :
    ArchiveLaw (eraseSlotBody l p s).1 := by
  unfold eraseSlotBody
  dsimp only
  split
  · exact h
  · rename_i busy
    split
    · exact h
    · split
      · exact h
      · exact eraseSlot_archiveLaw h (archiveBusy_false busy) rfl rfl trivial
      · exact eraseSlot_archiveLaw h (archiveBusy_false busy) rfl rfl trivial
      all_goals exact h

theorem slotsToWipe_ascend {s : State} : s.slotsToWipe.Pairwise (· < ·) :=
  List.Pairwise.filter _ List.pairwise_lt_range

theorem mem_slotsToWipe {s : State} {i : Nat} :
    i ∈ s.slotsToWipe ↔ i < s.archive.slots.length ∧ (s.slot i).state ≠ .empty := by
  simp [State.slotsToWipe]

theorem wipeArchiveBody_archiveLaw {s : State} (h : ArchiveLaw s) (l : Link) : ArchiveLaw (wipeArchiveBody l s).1 := by
  unfold wipeArchiveBody
  split
  · exact h
  · rename_i busy
    have idle : s.setEngine .idle = s := by rw [← archiveBusy_false busy]; rfl
    exact wipeNext_archiveLaw (u := s) (by rw [idle]; exact h) rfl slotsToWipe_ascend fun j hj =>
      ((archiveLaw_iff s).mp h).1 ▸ (mem_slotsToWipe.mp hj).1

/-- A slot that is read stays as it is but for its marks, or is released. -/
theorem readSlot_state (x : Slot) (n : Nat) (pages : List Nat) :
    (readSlot x n pages).state = x.state ∨ ((readSlot x n pages).state = .released ∧ x.state = .held
      ∧ allRead (readSlot x n pages).readMarks n = true) := by
  unfold readSlot
  dsimp only
  split
  · rename_i g; exact .inr ⟨rfl, g⟩
  · exact .inl rfl

theorem readArchiveBody_archiveLaw {s : State} (h : ArchiveLaw s) (l : Link) (p : List Byte) :
    ArchiveLaw (readArchiveBody l p s).1 := by
  unfold readArchiveBody
  dsimp only
  split
  · exact h
  · rename_i busy
    repeat' split
    all_goals try exact h
    rcases readSlot_state (s.slot (unsignedAt p 0 1).toNat) ((s.slot (unsignedAt p 0 1).toNat).pageCount.getD 0)
      (pageNumbers ((s.slot (unsignedAt p 0 1).toNat).pageCount.getD 0) (unsignedAt p 1 1).toNat (unsignedAt p 2 1).toNat)
      with e | ⟨e, -⟩
    · exact archiveLaw_setSlot h e
    · have idle := archiveBusy_false busy
      obtain ⟨-, -, closing, asc, walker⟩ := (archiveLaw_iff s).mp h
      refine archiveLaw_set h (e := s.archive.engine) rfl (fun _ => ?_) (fun _ _ _ => .rfl) (fun _ _ _ => .rfl) closing asc
        walker
      rw [e, idle]
      exact ⟨iff_of_false nofun nofun, iff_of_false nofun nofun⟩

/-! ## The walker while a slot is reserved -/

theorem settle_walker (k : Nat) (s : State) : (settle k s).table.walker = s.table.walker := by
  rcases settle_cases k s with e | ⟨r, m, fx, fy, -, -, e⟩
  · rw [e]
  · exact congrArg (·.2.walker) e

theorem readStationsBody_walker (l : Link) (p : List Byte) (s : State) :
    (readStationsBody l p s).1.table.walker = s.table.walker := by
  have set (t : StationTable) (h : Hold) : (t.setHold l h).walker = t.walker := by cases l <;> rfl
  have evaluated (first count : Nat) (u : State) :
      (evaluateStations l first count u).1.table.walker = u.table.walker := by
    unfold evaluateStations
    dsimp only
    repeat' split
    all_goals first | rfl | exact set _ _
  unfold readStationsBody stationsOf
  dsimp only
  repeat' split
  all_goals first | rfl | exact set _ _ | exact evaluated _ _ _ | exact (evaluated _ _ _).trans (set _ _)

theorem encoderChange_walker {s : State} (h : s.panel ≠ .active) (a b : Bool) :
    (encoderChange a b s).table.walker = s.table.walker := by
  have illegal (u : State) : (illegalTransition u).table = u.table := illegalTransition_touches u .table (by decide)
  have counted (step : Int) : (countStep step (setLines a b s)).table.walker = s.table.walker := by
    unfold countStep
    dsimp only
    split
    · split
      · unfold judgeCrossing
        rw [if_neg (fun g => h g.1)]
        unfold judgeSettlement
        split
        · split
          · exact settle_walker _ _
          · rfl
        · rfl
      · unfold judgeRearm
        rw [if_neg (fun g => h g.1)]
        rfl
    · rw [illegal]; rfl
  unfold encoderChange
  dsimp only
  split
  · rfl
  · exact counted _
  · exact counted _
  · rw [illegal]; rfl

theorem conversionDone_walker (raw : Int) (s : State) : (conversionDone raw s).table.walker = s.table.walker := by
  have stations (r : ScanRecord) (u : State) : (stationScan r u).table.walker = u.table.walker := by
    unfold stationScan; split <;> rfl
  have consumed (r : ScanRecord) (u : State) : (consumers r u).table.walker = u.table.walker := by
    have watched (v : State) : (returnScan r (driveScan r v)).table = v.table :=
      (touches_trans (touches_mono (driveScan_touches r v) (by decide : [Part.drives] ⊆ [.drives, .ret]))
        (touches_mono (returnScan_touches r _) (by decide))) .table (by decide)
    have aligned (v : State) : (alignScan r v).table = v.table := alignScan_touches r v .table (by decide)
    have plates (v : State) : (plateScan r v).table = v.table := plateScan_touches r v .table (by decide)
    unfold consumers
    dsimp only
    split
    · rw [plates, aligned, watched, stations]; rfl
    · rw [aligned, plates, watched, stations]; rfl
  have ended (u : State) : (scanCompletion u).table.walker = u.table.walker := by
    have after (v : State) : (afterScan v).table = v.table := afterScan_touches v .table (by decide)
    have judgedTable (b : Bool) (v : State) : (judgeScan b v).table = v.table := judgeScan_touches b v .table (by decide)
    unfold scanCompletion
    rw [after]
    split
    · rfl
    · unfold publishScan
      dsimp only
      rw [consumed]
      exact congrArg (·.walker) (judgedTable _ u)
  cases hc : s.acq.activeList[s.acq.results.length]? with
  | none => rw [conversionDone_of_end hc]; exact ended s
  | some c =>
    have gained : (converted raw c s).table = s.table := converted_touches raw c s .table (by decide)
    rw [conversionDone_of_entry hc]
    split
    · rw [gained]
    · rw [ended, gained]

/-! ## Every step -/

/-- With the archive and the panel kept, the law asks only for the walker while a slot is reserved; the panel is then
CLOSING. -/
theorem archiveLaw_kept {s t : State} (h : ArchiveLaw s) (archive : t.archive = s.archive) (panel : t.panel = s.panel)
    (walker : s.panel ≠ .active → t.table.walker = s.table.walker) : ArchiveLaw t := by
  obtain ⟨-, -, closing, -, waits⟩ := (archiveLaw_iff s).mp h
  refine archiveLaw_congr h archive panel ?_
  rw [archive]
  cases he : s.archive.engine with
  | reserved i =>
    have shut : s.panel = .closing := closing.mpr (by rw [he]; rfl)
    rw [walker (by rw [shut]; nofun)]
    rw [he] at waits
    exact waits
  | _ => trivial

/-- The panel changes while no close is in flight, to a state that is not CLOSING. -/
theorem archiveLaw_panel {s t : State} (h : ArchiveLaw s) (before : s.panel ≠ .closing) (after : t.panel ≠ .closing)
    (archive : t.archive = s.archive) : ArchiveLaw t := by
  obtain ⟨len, fits, closing, asc, -⟩ := (archiveLaw_iff s).mp h
  have writes : s.archive.engine.writes = none := by
    rw [← Option.not_isSome_iff_eq_none]; exact fun g => before (closing.mpr g)
  refine (archiveLaw_iff t).mpr ⟨archive ▸ len, fun i hi => ?_, ?_, archive ▸ asc, archive ▸ awaits_of_writes writes _⟩
  · unfold State.slot; rw [archive]; exact fits i hi
  · rw [archive, writes]; exact iff_of_false after nofun

theorem rowRule_archiveLaw (c : Instr) (l : Link) (p : List Byte) {s : State} (h : ArchiveLaw s)
    (hr : requestRow c ≠ none) : ArchiveLaw (rowRule c l p s).1 := by
  by_cases untouched : Part.archive ∉ touched c ∧ Part.panel ∉ touched c
  · refine archiveLaw_kept h (rowRule_touches c l p s .archive untouched.1) (rowRule_touches c l p s .panel untouched.2)
      fun _ => ?_
    by_cases ht : Part.table ∈ touched c
    · have set (t : StationTable) (x : Hold) : (t.setHold l x).walker = t.walker := by cases l <;> rfl
      cases c with
      | setDepth =>
        refine payloadOf_keeps (P := fun u => u.table.walker = s.table.walker) rfl ?_
        unfold setDepthBody
        dsimp only
        repeat' split
        all_goals simp [clearAccumulator, setReference, placeFloor]
      | readStations =>
        exact payloadOf_keeps (P := fun u => u.table.walker = s.table.walker) rfl (readStationsBody_walker l p s)
      | cancelHold =>
        refine emptyPayload_keeps (P := fun u => u.table.walker = s.table.walker) rfl ?_
        unfold cancelHoldBody
        split
        · rfl
        · exact set _ _
      | _ => first | exact absurd rfl hr | exact absurd ht (by decide) | exact absurd untouched (by decide)
    · rw [show (rowRule c l p s).1.table = s.table from rowRule_touches c l p s .table ht]
  · cases c with
    | openPanel =>
      refine payloadOf_keeps h ?_
      unfold openPanelBody
      split
      · exact h
      · rename_i shut
        dsimp only
        split
        · exact h
        · have archive := openPanel_touches (geometryOf p) s .archive (by decide)
          have panel : (openPanel (geometryOf p) s).panel = .active := by
            unfold openPanel
            exact openGovernor_touches _ _ .panel (by decide)
          exact archiveLaw_panel h (fun g => shut (.inr g)) (by rw [panel]; nofun) archive
    | closePanel => exact emptyPayload_keeps h (closePanelBody_archiveLaw h l)
    | abandonPanel =>
      refine emptyPayload_keeps h ?_
      have emptied (hp : s.panel ≠ .closing) :
          ArchiveLaw (setPanel .idle { s with table := s.table.emptied }) :=
        archiveLaw_panel h hp (by simp [setPanel]) (by simp [setPanel])
      unfold abandonPanelBody
      split
      · exact h
      · exact h
      · rename_i e; exact emptied (by rw [e]; nofun)
      · rename_i e; exact emptied (by rw [e]; nofun)
    | readArchive => exact payloadOf_keeps h (readArchiveBody_archiveLaw h l p)
    | eraseSlot => exact payloadOf_keeps h (eraseSlotBody_archiveLaw h l p)
    | wipeArchive => exact emptyPayload_keeps h (wipeArchiveBody_archiveLaw h l)
    | _ => first | exact absurd rfl hr | exact absurd (by decide) untouched

theorem restitchDone_archiveLaw {s : State} (h : ArchiveLaw s) (w : Walker) : ArchiveLaw (restitchDone w s) := by
  have archive : (restitch w s).archive = s.archive := restitch_touches w s .archive (by decide)
  have panel : (restitch w s).panel = s.panel := restitch_touches w s .panel (by decide)
  obtain ⟨len, fits, closing, asc, -⟩ := (archiveLaw_iff s).mp h
  unfold restitchDone
  dsimp only
  split
  · refine endWalkStage_archiveLaw ⟨archive ▸ len, fun i hi => ?_, ?_, archive ▸ asc⟩
    · unfold State.slot; rw [archive]; exact fits i hi
    · rw [archive, panel]; exact closing
  · rename_i other
    have before : s.panel ≠ .closing := panel ▸ other
    exact archiveLaw_panel h before other archive

theorem eventRule_archiveLaw (c : Instr) {s : State} (h : ArchiveLaw s) (he : eventTime s c ≠ none) :
    ArchiveLaw (eventRule c s) := by
  by_cases untouched : Part.archive ∉ touched c ∧ Part.panel ∉ touched c
  · refine archiveLaw_kept h (eventRule_touches c s .archive untouched.1) (eventRule_touches c s .panel untouched.2)
      fun hp => ?_
    by_cases ht : Part.table ∈ touched c
    · cases c with
      | warm => simp [eventRule, warmState, StationTable.mapHolds]
      | conversionCompletion raw => exact conversionDone_walker raw s
      | encoderTransition a b => exact encoderChange_walker hp a b
      | pageProgramCompletion v => exact absurd untouched (by simp [touched])
      | restitchStepCompletion => exact absurd untouched (by simp [touched])
      | _ => first | exact absurd rfl he | exact absurd ht (by simp [touched])
    · rw [show (eventRule c s).table = s.table from eventRule_touches c s .table ht]
  · cases c with
    | pageProgramCompletion v => exact pageDone_archiveLaw h v
    | eraseCompletion blank => exact eraseDone_archiveLaw h blank
    | restitchStepCompletion =>
      simp only [eventRule]
      split
      · exact restitchDone_archiveLaw h _
      · exact h
    | _ => first | exact absurd rfl he | exact absurd (by simp [touched]) untouched

/-- After COLD no slot is WRITING or ERASING, and the engine is IDLE. -/
theorem coldState_archiveLaw {s : State} (h : ArchiveLaw s) : ArchiveLaw (coldState s) := by
  have len := ((archiveLaw_iff s).mp h).1
  refine (archiveLaw_iff _).mpr ⟨?_, fun i hi => ?_, iff_of_false nofun nofun, trivial, trivial⟩
  · exact (List.length_map _).trans len
  · have slot : (coldState s).slot i = coldSlot (s.slot i) := by
      simp [State.slot, coldState, coldArchive, List.getD_eq_getElem?_getD, len, hi]
    rw [slot]
    unfold coldSlot
    split
    · exact ⟨iff_of_false (by simp) nofun, iff_of_false (by simp) nofun⟩
    · rename_i other
      exact ⟨iff_of_false (fun g => other (.inl g)) nofun, iff_of_false (fun g => other (.inr g)) nofun⟩

/-- Settles O13: by the operations of the engine, and the walker's part while a slot is reserved. -/
theorem stepKeepsArchiveLaw : Obligations.StepKeepsArchiveLaw := by
  intro s t hs h
  refine step_keeps h hs (fun _ _ _ h => h) (fun _ _ h => h) fun c s t h hP => ?_
  exact exec_keeps h hP (fun _ _ h => h) (fun _ _ h => h) coldState_archiveLaw (fun _ h => h) (fun _ _ h => h)
    (fun l p s hr h => rowRule_archiveLaw c l p h hr) (fun s _ he h => eventRule_archiveLaw c h he)

end Sys2Proof.Machine
end

section
/-! What a command can do to a drive, said once (`Turned`, `PumpTurned`): its bounds (R104), its direction output (R108)
and its counters (R122). -/

namespace Sys2Proof.Machine

open Sys2Proof.Safety

/-! ## One drive -/

/-- A counter that only counts: within its range it never falls, and it stays in its range. -/
def Counted (c c' : Counter) : Prop := c.value ≤ 16777215 → c.value ≤ c'.value ∧ c'.value ≤ 16777215

theorem Counted.refl (c : Counter) : Counted c c := fun h => ⟨le_rfl, h⟩

theorem Counted.tick (c : Counter) : Counted c c.tick.1 := fun h => by
  rw [tick_eq h]
  exact ⟨by simp only [tickOf]; omega, by simp only [tickOf]; omega⟩

theorem counted_refl (cs : List Counter) : List.Forall₂ Counted cs cs := List.forall₂_same.mpr fun c _ => .refl c

theorem counted_modify (cs : List Counter) (k : Nat) : List.Forall₂ Counted cs (cs.modify k fun c => c.tick.1) := by
  induction cs generalizing k with
  | nil => simp
  | cons c cs ih =>
    cases k with
    | zero => exact .cons (.tick c) (counted_refl cs)
    | succ k => exact .cons (.refl c) (ih k)

/-- What a command can do to a wheel drive, `ok` being what its loop pass needs: the bounds of its values are kept, the
direction output changes only with the valve closed, and its counters only count. -/
structure Turned (ok : Prop) (d d' : WheelDrive) : Prop where
  bounds : ok → MotorBounds 400 d.motor → MotorBounds 400 d'.motor
  direction : d'.dirOut ≠ d.dirOut → d'.motor.applied = 0
  rev : Counted d.motor.rev d'.motor.rev
  loaded : Counted d.loadedTime d'.loadedTime
  bands : List.Forall₂ Counted d.bands d'.bands

/-- What a command can do to drive P. -/
structure PumpTurned (ok : Prop) (d d' : PumpDrive) : Prop where
  bounds : ok → MotorBounds 15000 d.motor → MotorBounds 15000 d'.motor
  rev : Counted d.motor.rev d'.motor.rev

/-- What a command that does not zero the tallies can do to the drives. -/
structure DrivesTurned (ok : Prop) (x y : Drives) : Prop where
  a : Turned ok x.a y.a
  b : Turned ok x.b y.b
  p : PumpTurned ok x.p y.p

/-- A change that keeps the direction output, the counters and the motor but for a target of 0. -/
theorem turned_of_kept {ok : Prop} {d d' : WheelDrive} (hm : d'.motor = d.motor ∨ d'.motor = { d.motor with target := 0 })
    (hd : d'.dirOut = d.dirOut) (hl : d'.loadedTime = d.loadedTime) (hb : d'.bands = d.bands) : Turned ok d d' := by
  have rev : d'.motor.rev = d.motor.rev := by rcases hm with e | e <;> rw [e]
  refine ⟨fun _ h => ?_, fun g => absurd hd g, rev ▸ .refl _, hl ▸ .refl _, hb ▸ counted_refl _⟩
  rcases hm with e | e <;> rw [e]
  · exact h
  · obtain ⟨-, -, rest⟩ := h
    exact ⟨le_rfl, (by decide : (0 : Int) ≤ 400), rest⟩

theorem Turned.refl {ok : Prop} (d : WheelDrive) : Turned ok d d := turned_of_kept (.inl rfl) rfl rfl rfl

theorem PumpTurned.refl {ok : Prop} (d : PumpDrive) : PumpTurned ok d d := ⟨fun _ h => h, .refl _⟩

theorem DrivesTurned.refl {ok : Prop} (x : Drives) : DrivesTurned ok x x := ⟨.refl _, .refl _, .refl _⟩

theorem stopUnwatched_kept (d : WheelDrive) : (stopUnwatched d).motor = d.motor ∧ (stopUnwatched d).dirOut = d.dirOut
    ∧ (stopUnwatched d).loadedTime = d.loadedTime ∧ (stopUnwatched d).bands = d.bands := by
  unfold stopUnwatched; split <;> exact ⟨rfl, rfl, rfl, rfl⟩

theorem turned_published {ok : Prop} {d d' : WheelDrive} (h : Turned ok d d') : Turned ok d (stopUnwatched d') := by
  obtain ⟨bounds, direction, rev, loaded, bands⟩ := h
  obtain ⟨motor, out, time, tallies⟩ := stopUnwatched_kept d'
  constructor
  · rwa [motor]
  · rwa [motor, out]
  · rwa [motor]
  · rwa [time]
  · rwa [tallies]

/-- A motor that changes but for its target, its working demand and its duty. -/
theorem turned_motor {ok : Prop} {d : WheelDrive} {m : Motor} (h : MotorBounds 400 d.motor → MotorBounds 400 m)
    (hr : Counted d.motor.rev m.rev) : Turned ok d { d with motor := m } :=
  ⟨fun _ => h, fun g => absurd rfl g, hr, .refl _, counted_refl _⟩

/-! ## The drives after the shared operations -/

theorem drives_setWheel {ok : Prop} {s : State} (w : WheelId) {d : WheelDrive} (h : Turned ok (s.wheel w) d) :
    DrivesTurned ok s.drives (s.setWheel w d).drives := by
  cases w
  · exact ⟨h, .refl _, .refl _⟩
  · exact ⟨.refl _, h, .refl _⟩

theorem publishWheel_drives (w : WheelId) (d : WheelDrive) (s : State) :
    (publishWheel w d s).drives = (s.setWheel w (stopUnwatched d)).drives := by
  rw [publishWheel_eq, govern_drives]

theorem drives_published {ok : Prop} {s : State} (w : WheelId) {d : WheelDrive} (h : Turned ok (s.wheel w) d) :
    DrivesTurned ok s.drives (publishWheel w d s).drives := by
  rw [publishWheel_drives]
  exact drives_setWheel w (turned_published h)

theorem drives_setMotor {ok : Prop} {s : State} (d : DriveId) {m : Motor}
    (h : ∀ top, MotorBounds top (s.motor d) → MotorBounds top m) (hr : Counted (s.motor d).rev m.rev) :
    DrivesTurned ok s.drives (s.setMotor d m).drives := by
  cases d
  · exact ⟨turned_motor (h _) hr, .refl _, .refl _⟩
  · exact ⟨.refl _, turned_motor (h _) hr, .refl _⟩
  · exact ⟨.refl _, .refl _, ⟨fun _ => h _, hr⟩⟩

theorem publishPump_drives (d : PumpDrive) (s : State) : (publishPump d s).drives = { s.drives with p := d } := by
  unfold publishPump pumpStarted pumpStopped
  dsimp only
  repeat' split
  all_goals first | rfl | exact enterReturn_drives _ _

/-! ## The loop pass -/

/-- What a loop pass needs of the demands and the differential. -/
def Steered (s : State) : Prop := DemandLaw s ∧ DifferentialLaw s

theorem Steered.diff {s : State} (h : Steered s) : |s.align.diff| ≤ 200 := by
  obtain ⟨⟨-, -, tuning, -⟩, diff⟩ := h
  have most := (tuning 4 _ rfl).2
  simp only [tuningRange] at most
  exact diff.trans (by omega)

theorem wheelTarget_mem {s : State} (h : Steered s) (w : WheelId) : 0 ≤ wheelTarget s w ∧ wheelTarget s w ≤ 400 := by
  have reverse := h.1.2.2.1 17 _ rfl
  simp only [tuningRange] at reverse
  unfold wheelTarget
  dsimp only
  split
  · exact composedTarget_mem w _ h.diff
  · exact composedTarget_mem w _ h.diff
  · exact composedTarget_mem w _ h.diff
  · split <;> omega
  · omega

theorem dutyStage_kept (t : TuningGroup) (closed : Bool) (f : Int) (m : Motor) :
    dutyStage t closed f m
      = { m with computed := (dutyStage t closed f m).computed, integ := (dutyStage t closed f m).integ } := by
  unfold dutyStage dutyTerms
  split <;> rfl

/-- The motor that a loop pass leaves: a new target, the working demand stepped toward a goal, and the duty stage. -/
theorem loopMotor_bounds {top target goal step : Int} {t : TuningGroup} {closed : Bool} {f : Int → Int} {m : Motor}
    {timer : Timer} (h : MotorBounds top m) (hs : 0 ≤ step) (h1 : 0 ≤ target) (h2 : target ≤ top) (g1 : 0 ≤ goal)
    (g2 : goal ≤ top) : MotorBounds top (dutyStage t closed (f (stepToward m.working goal step))
      { m with loopTimer := timer, target := target, working := stepToward m.working goal step }) := by
  obtain ⟨-, -, w1, w2, i1, i2, -, -, rest⟩ := h
  obtain ⟨r1, r2⟩ := stepToward_mem w1 w2 g1 g2 hs
  rw [dutyStage_kept]
  obtain ⟨c1, c2, j1, j2⟩ := dutyStage_mem t closed (f (stepToward m.working goal step)) (m :=
    { m with loopTimer := timer, target := target, working := stepToward m.working goal step }) i1 i2
  exact ⟨h1, h2, r1, r2, j1, j2, c1, c2, rest⟩

/-- The flip changes the direction, its status and the reverse timer, the first only with the valve closed. -/
theorem flipStage_kept (s : State) (d : WheelDrive) : (flipStage s d).motor = d.motor
    ∧ (flipStage s d).loadedTime = d.loadedTime ∧ (flipStage s d).bands = d.bands
    ∧ ((flipStage s d).dirOut ≠ d.dirOut → d.motor.applied = 0) := by
  unfold flipStage
  split
  · rename_i h; exact ⟨rfl, rfl, rfl, fun _ => h.2.2.1⟩
  · exact ⟨rfl, rfl, rfl, fun g => absurd rfl g⟩

/-- A wheel drive in a loop pass once its target is composed, its state decided and its direction status set. -/
def passDecided (w : WheelId) (s : State) : WheelDrive :=
  let d : WheelDrive := { s.wheel w with motor := { (s.wheel w).motor with
    loopTimer := some (s.inMs s.demand.tuning.loopPeriod)
    target := wheelTarget s w } }
  withDirStatus s.demand.wheel { d with state := wheelStateAt s.demand.tuning d }

/-- A wheel drive in a loop pass after the duty stage, before the flip. -/
def passRamped (w : WheelId) (s : State) : WheelDrive :=
  let d := passDecided w s
  let m := ramp s.demand.tuning (if d.dirStatus = .changing then 0 else d.motor.target) d.motor
  let closed := wheelClosed { d with motor := m }
  { d with motor := dutyStage s.demand.tuning closed ((m.working * s.demand.tuning.kf).tdiv 100) m }

theorem wheelPass_eq (w : WheelId) (s : State) : wheelPass w s = flipStage s (passRamped w s) := rfl

theorem wheelPass_turned (w : WheelId) (s : State) : Turned (Steered s) (s.wheel w) (wheelPass w s) := by
  obtain ⟨motor, time, bands, flipped⟩ := flipStage_kept s (passRamped w s)
  have rev : (passRamped w s).motor.rev = (s.wheel w).motor.rev := by
    unfold passRamped; dsimp only; rw [dutyStage_kept]; rfl
  rw [wheelPass_eq]
  refine ⟨fun ok h => ?_, fun g => ?_, ?_, ?_, ?_⟩
  · have step := (ok.1.2.2.1 22 _ rfl).1
    simp only [tuningRange] at step
    obtain ⟨t1, t2⟩ := wheelTarget_mem ok w
    have goal : 0 ≤ (if (passDecided w s).dirStatus = .changing then 0 else wheelTarget s w)
        ∧ (if (passDecided w s).dirStatus = .changing then 0 else wheelTarget s w) ≤ 400 := by split <;> omega
    rw [motor]
    exact loopMotor_bounds (m := (s.wheel w).motor) (f := fun x => (x * s.demand.tuning.kf).tdiv 100) h (by omega) t1 t2 goal.1 goal.2
  · rw [motor]; exact flipped g
  · rw [motor, rev]; exact .refl _
  · rw [time]; exact .refl _
  · rw [bands]; exact counted_refl _

theorem pumpPass_turned (s : State) : PumpTurned (Steered s) s.drives.p (pumpPass s) := by
  refine ⟨fun ok h => ?_, ?_⟩
  · have step := (ok.1.2.2.1 22 _ rfl).1
    simp only [tuningRange] at step
    obtain ⟨t1, t2⟩ : 0 ≤ pumpTarget s ∧ pumpTarget s ≤ 15000 := clamp_mem (by decide) _
    exact loopMotor_bounds (m := s.drives.p.motor) (f := fun x => (x * 1000).tdiv 15000) h (by omega) t1 t2 t1 t2
  · have rev : (pumpPass s).motor.rev = s.drives.p.motor.rev := by
      unfold pumpPass; dsimp only; rw [dutyStage_kept]; rfl
    rw [rev]; exact .refl _

/-! ## The drives after each command -/

theorem pickupEdge_turned (d : DriveId) (s : State) : DrivesTurned (Steered s) s.drives (pickupEdge d s).drives := by
  have speed : 0 ≤ edgeSpeed s (s.motor d) (s.geometry.ppr d) ∧ edgeSpeed s (s.motor d) (s.geometry.ppr d) ≤ 65535 := by
    unfold edgeSpeed
    split
    · omega
    · split
      · omega
      · exact clamp_mem (by decide) _
  unfold pickupEdge
  dsimp only
  split
  · exact .refl _
  · rw [raiseIf_drives]
    refine drives_setMotor d (fun top h => ?_) ?_
    · obtain ⟨h1, h2, h3, h4, h5, h6, h7, h8, h9, h10, -, -⟩ := h
      exact ⟨h1, h2, h3, h4, h5, h6, h7, h8, h9, h10, speed⟩
    · dsimp only
      split
      · exact .tick _
      · exact .refl _

theorem pickupSilent_turned (d : DriveId) (s : State) : DrivesTurned (Steered s) s.drives (pickupSilent d s).drives := by
  refine drives_setMotor d (fun top h => ?_) (.refl _)
  obtain ⟨h1, h2, h3, h4, h5, h6, h7, h8, h9, h10, -, -⟩ := h
  exact ⟨h1, h2, h3, h4, h5, h6, h7, h8, h9, h10, le_rfl, (by decide : (0 : Int) ≤ 65535)⟩

theorem pwmPeriod_turned (s : State) : DrivesTurned (Steered s) s.drives (pwmPeriod s).drives := by
  have applied {top : Int} {m : Motor} (h : MotorBounds top m) : MotorBounds top (applyDuty m) := by
    obtain ⟨h1, h2, h3, h4, h5, h6, h7, h8, -, -, rest⟩ := h
    exact ⟨h1, h2, h3, h4, h5, h6, h7, h8, h7, h8, rest⟩
  exact ⟨turned_motor applied (.refl _), turned_motor applied (.refl _), ⟨fun _ => applied, .refl _⟩⟩

theorem stall_turned (w : WheelId) (s : State) : DrivesTurned (Steered s) s.drives (stall w s).drives := by
  unfold stall
  dsimp only
  split
  · exact drives_published (s := raise .driveStall s) w (turned_of_kept (.inl rfl) rfl rfl rfl)
  · exact drives_published (s := raise .driveLockout (raise .driveStall s)) w (turned_of_kept (.inr rfl) rfl rfl rfl)

theorem loadedTick_turned {ok : Prop} (w : WheelId) (s : State) : Turned ok (s.wheel w) ((loadedTick w s).wheel w)
    ∧ ∀ v, v ≠ w → (loadedTick w s).wheel v = s.wheel v := by
  unfold loadedTick
  dsimp only
  split
  · have kept (c : Bool) (f : Flag) (u : State) (v : WheelId) : (raiseIf c f u).wheel v = u.wheel v := by
      unfold State.wheel; rw [raiseIf_drives]
    refine ⟨?_, fun v hv => ?_⟩
    · rw [kept, setWheel_wheel, if_pos rfl]
      exact ⟨fun _ h => h, fun g => absurd rfl g, .refl _, .tick _, counted_refl _⟩
    · rw [kept, setWheel_wheel, if_neg hv]
  · exact ⟨.refl _, fun _ _ => rfl⟩

theorem wheelScan_turned {ok : Prop} (w : WheelId) (r : ScanRecord) (s : State) :
    Turned ok (s.wheel w) ((wheelScan w r s).wheel w) ∧ ∀ v, v ≠ w → (wheelScan w r s).wheel v = s.wheel v := by
  unfold wheelScan
  split
  · have kept (c : Bool) (f : Flag) (u : State) (v : WheelId) : (raiseIf c f u).wheel v = u.wheel v := by
      unfold State.wheel; rw [raiseIf_drives]
    dsimp only
    refine ⟨?_, fun v hv => ?_⟩
    · rw [kept, setWheel_wheel, if_pos rfl]
      refine ⟨fun _ h => h, fun g => absurd rfl g, .refl _, .refl _, ?_⟩
      dsimp only
      split
      · exact counted_modify _ _
      · exact counted_refl _
    · rw [kept, setWheel_wheel, if_neg hv]
  · refine ⟨?_, fun v hv => ?_⟩
    · rw [setWheel_wheel, if_pos rfl]; exact turned_published (.refl _)
    · rw [setWheel_wheel, if_neg hv]
  · exact ⟨.refl _, fun _ _ => rfl⟩

/-- Each wheel drive changed by one operation of its own, and drive P by none. -/
theorem drives_both {ok : Prop} {s t : State} (ha : Turned ok (s.wheel .a) (t.wheel .a))
    (hb : Turned ok (s.wheel .b) (t.wheel .b)) (hp : t.drives.p = s.drives.p) : DrivesTurned ok s.drives t.drives :=
  ⟨ha, hb, hp ▸ .refl _⟩

theorem loadedTick_pump (w : WheelId) (s : State) : (loadedTick w s).drives.p = s.drives.p := by
  unfold loadedTick
  dsimp only
  split
  · rw [raiseIf_drives]; cases w <;> rfl
  · rfl

theorem loadedTime_turned {ok : Prop} (s : State) : DrivesTurned ok s.drives (loadedTime s).drives := by
  unfold loadedTime
  obtain ⟨first, other⟩ := loadedTick_turned (ok := ok) .a
    { s with drives := { s.drives with loadedTimer := some (s.clock + 100000) } }
  obtain ⟨second, kept⟩ := loadedTick_turned (ok := ok) .b (loadedTick .a
    { s with drives := { s.drives with loadedTimer := some (s.clock + 100000) } })
  refine drives_both ?_ ?_ ((loadedTick_pump _ _).trans (loadedTick_pump _ _))
  · rw [kept .a nofun]; exact first
  · rw [other .b nofun] at second; exact second

theorem wheelScan_pump (w : WheelId) (r : ScanRecord) (s : State) : (wheelScan w r s).drives.p = s.drives.p := by
  unfold wheelScan
  split
  · dsimp only; rw [raiseIf_drives]; cases w <;> rfl
  · cases w <;> rfl
  · rfl

theorem driveScan_turned {ok : Prop} (r : ScanRecord) (s : State) :
    DrivesTurned ok s.drives (driveScan r s).drives := by
  obtain ⟨first, other⟩ := wheelScan_turned (ok := ok) .a r s
  obtain ⟨second, kept⟩ := wheelScan_turned (ok := ok) .b r (wheelScan .a r s)
  refine drives_both ?_ ?_ ((wheelScan_pump _ _ _).trans (wheelScan_pump _ _ _))
  · rw [driveScan, kept .a nofun]; exact first
  · rw [other .b nofun] at second; exact second

theorem consumers_drives (r : ScanRecord) (s : State) :
    (consumers r s).drives = (driveScan r (stationScan r s.drawn)).drives := by
  have aligned (v : State) : (alignScan r v).drives = v.drives := alignScan_touches r v .drives (by decide)
  have plates (v : State) : (plateScan r v).drives = v.drives := plateScan_touches r v .drives (by decide)
  have returned (v : State) : (returnScan r v).drives = v.drives := returnScan_touches r v .drives (by decide)
  unfold consumers
  dsimp only
  split
  · rw [plates, aligned, returned]
  · rw [aligned, plates, returned]

theorem conversionDone_turned {ok : Prop} (raw : Int) (s : State) :
    DrivesTurned ok s.drives (conversionDone raw s).drives := by
  have published (u : State) : DrivesTurned ok u.drives (publishScan u).drives := by
    unfold publishScan
    dsimp only
    have scanned (r : ScanRecord) {v : State} (hv : v.drives = u.drives) :
        DrivesTurned ok u.drives (driveScan r (stationScan r v.drawn)).drives := by
      have stations : (stationScan r v.drawn).drives = v.drives := stationScan_touches r v.drawn .drives (by decide)
      rw [← hv, ← stations]
      exact driveScan_turned r _
    rw [consumers_drives]
    exact scanned _ (judgeScan_touches _ u .drives (by decide))
  have ended (u : State) : DrivesTurned ok u.drives (scanCompletion u).drives := by
    have after (v : State) : (afterScan v).drives = v.drives := afterScan_touches v .drives (by decide)
    unfold scanCompletion
    rw [after]
    split
    · exact .refl _
    · exact published u
  cases hc : s.acq.activeList[s.acq.results.length]? with
  | none => rw [conversionDone_of_end hc]; exact ended s
  | some c =>
    have gained : (converted raw c s).drives = s.drives := converted_touches raw c s .drives (by decide)
    rw [conversionDone_of_entry hc]
    split
    · rw [gained]; exact .refl _
    · rw [← gained]; exact ended _

theorem warmWheel_turned {ok : Prop} (d : WheelDrive) : Turned ok d (warmWheel d) :=
  ⟨fun _ _ => by simp [MotorBounds, warmWheel], fun _ => rfl, .refl _, .refl _, counted_refl _⟩

/-- What an event does to the drives. -/
theorem eventRule_turned (c : Instr) {s : State} (he : eventTime s c ≠ none) :
    DrivesTurned (Steered s) s.drives (eventRule c s).drives := by
  by_cases hd : Part.drives ∈ touched c
  · cases c with
    | warm => simp only [eventRule, warmState, govern_drives]; exact ⟨warmWheel_turned _, warmWheel_turned _, .refl _⟩
    | conversionCompletion raw => exact conversionDone_turned raw s
    | pickupEdge d elapsed => exact pickupEdge_turned d s
    | pickupTimeout d => exact pickupSilent_turned d s
    | loopTimerExpiry d =>
      cases d with
      | a => exact drives_published .a (wheelPass_turned .a s)
      | b => exact drives_published .b (wheelPass_turned .b s)
      | p =>
        simp only [eventRule, loopPass, publishPump_drives]
        exact ⟨.refl _, .refl _, pumpPass_turned s⟩
    | pwmPeriodStart => exact pwmPeriod_turned s
    | stallConfirmExpiry w => exact stall_turned w s
    | reverseTimerExpiry w => exact drives_published w (turned_of_kept (.inl rfl) rfl rfl rfl)
    | loadedTimeExpiry => exact loadedTime_turned s
    | _ => first | exact absurd rfl he | exact absurd hd (by simp [touched])
  · rw [show (eventRule c s).drives = s.drives from eventRule_touches c s .drives hd]
    exact .refl _

/-- What a request does to the drives: OPEN PANEL and CLEAR TALLIES zero the tallies. -/
theorem rowRule_turned {ok : Prop} (c : Instr) (l : Link) (p : List Byte) (s : State) (hr : requestRow c ≠ none) :
    DrivesTurned ok s.drives (rowRule c l p s).1.drives
    ∨ ((c = .openPanel ∨ c = .clearTallies) ∧ (rowRule c l p s).1.drives = zeroTallies s.drives) := by
  by_cases hd : Part.drives ∈ touched c
  · cases c with
    | openPanel =>
      refine payloadOf_keeps (P := fun u => DrivesTurned ok s.drives u.drives ∨ (_ ∧ u.drives = zeroTallies s.drives))
        (.inl (.refl _)) ?_
      unfold openPanelBody
      split
      · exact .inl (.refl _)
      · dsimp only
        split
        · exact .inl (.refl _)
        · refine .inr ⟨.inl rfl, ?_⟩
          unfold openPanel
          exact openGovernor_touches _ _ .drives (by decide)
    | clearTallies =>
      refine emptyPayload_keeps (P := fun u => DrivesTurned ok s.drives u.drives ∨ (_ ∧ u.drives = zeroTallies s.drives))
        (.inl (.refl _)) ?_
      unfold clearTalliesBody
      split
      · exact .inl (.refl _)
      · exact .inr ⟨.inr rfl, rfl⟩
    | restartDrive =>
      refine .inl (payloadOf_keeps (P := fun u => DrivesTurned ok s.drives u.drives) (.refl _) ?_)
      unfold restartDriveBody
      split
      · exact .refl _
      · split
        · exact drives_published _ (turned_of_kept (.inl rfl) rfl rfl rfl)
        · exact .refl _
    | _ => first | exact absurd rfl hr | exact absurd hd (by decide)
  · rw [show (rowRule c l p s).1.drives = s.drives from rowRule_touches c l p s .drives hd]
    exact .inl (.refl _)

end Sys2Proof.Machine
end

section
/-! What the commands do to the link queues (R165, R166): only the receivers, the arbiter, the replies and WARM change
them. -/

namespace Sys2Proof.Machine

open Sys2Proof.Safety

/-- From `n` to `m` no queue changed, nor the count of level-0 grants. -/
structure Quiet (n m : Links) : Prop where
  cabRx : m.cab.rx = n.cab.rx
  plantRx : m.plant.rx = n.plant.rx
  recordRx : m.record.rx = n.record.rx
  cabReplies : m.cab.replies = n.cab.replies
  plantReplies : m.plant.replies = n.plant.replies
  recordReplies : m.record.replies = n.record.replies
  grants : m.levelZeroGrants = n.levelZeroGrants

@[simp] theorem Quiet.refl (n : Links) : Quiet n n := ⟨rfl, rfl, rfl, rfl, rfl, rfl, rfl⟩

theorem Quiet.trans {n m k : Links} (h : Quiet n m) (g : Quiet m k) : Quiet n k :=
  ⟨g.1.trans h.1, g.2.trans h.2, g.3.trans h.3, g.4.trans h.4, g.5.trans h.5, g.6.trans h.6, g.7.trans h.7⟩

@[simp] theorem quiet_raised (n m : Links) (x : FlagSet) : Quiet n (raisedLinks x m) ↔ Quiet n m :=
  ⟨fun ⟨a, b, c, d, e, f, g⟩ => ⟨a, b, c, d, e, f, g⟩, fun ⟨a, b, c, d, e, f, g⟩ => ⟨a, b, c, d, e, f, g⟩⟩

theorem quiet_setLink {s : State} (l : Link) {x : LinkState} (hr : x.rx = (s.link l).rx)
    (hq : x.replies = (s.link l).replies) : Quiet s.links (s.setLink l x).links := by
  cases l
  · exact ⟨hr, rfl, rfl, hq, rfl, rfl, rfl⟩
  · exact ⟨rfl, hr, rfl, rfl, hq, rfl, rfl⟩
  · exact ⟨rfl, rfl, hr, rfl, rfl, hq, rfl⟩

/-! ## The operations -/

theorem settle_quiet (k : Nat) (s : State) : Quiet s.links (settle k s).links := by
  unfold settle
  dsimp only
  repeat' split
  all_goals simp

theorem settleEach_quiet (ks : List Nat) (s : State) : Quiet s.links (settleEach ks s).links := by
  induction ks generalizing s with
  | nil => exact .refl _
  | cons k ks ih => exact (settle_quiet k s).trans (ih _)

theorem endWalkStage_quiet (s : State) : Quiet s.links (endWalkStage s).links := by
  unfold endWalkStage
  split
  · exact settleEach_quiet _ s
  · exact .refl _

theorem crossing_quiet (k : Nat) (ref : RefState) (s : State) : Quiet s.links (crossing k ref s).links := by
  unfold crossing
  dsimp only
  repeat' split
  all_goals simp

theorem restitchDone_quiet (w : Walker) (s : State) : Quiet s.links (restitchDone w s).links := by
  have step : Quiet s.links (restitch w s).links := by
    unfold restitch
    split
    · unfold advanceWalker restitchRecord
      dsimp only
      split <;> simp
    · exact .refl _
  unfold restitchDone
  dsimp only
  split
  · exact step.trans (endWalkStage_quiet _)
  · exact step

theorem enterReturn_quiet (st : ReturnState) (s : State) : Quiet s.links (enterReturn st s).links := by simp

theorem publishWheel_quiet (w : WheelId) (d : WheelDrive) (s : State) : Quiet s.links (publishWheel w d s).links := by
  rw [publishWheel_eq]; simp

theorem publishPump_quiet (d : PumpDrive) (s : State) : Quiet s.links (publishPump d s).links := by
  unfold publishPump pumpStarted pumpStopped
  dsimp only
  repeat' split
  all_goals simp

theorem wheelScan_quiet (w : WheelId) (r : ScanRecord) (s : State) : Quiet s.links (wheelScan w r s).links := by
  unfold wheelScan
  dsimp only
  repeat' split
  all_goals simp

theorem faultPlate_quiet (i : PlateId) (s : State) : Quiet s.links (faultPlate i s).links := by simp [faultPlate]

theorem plateJudgement_quiet (r : ScanRecord) (i : PlateId) (s : State) :
    Quiet s.links (plateJudgement r i s).links := by
  unfold plateJudgement
  dsimp only
  repeat' split
  all_goals first | exact .refl _ | exact faultPlate_quiet i s | simp

theorem plateScan_quiet (r : ScanRecord) (s : State) : Quiet s.links (plateScan r s).links := by
  unfold plateScan
  dsimp only
  split
  · exact (((plateJudgement_quiet r .af { s with plates := { s.plates with override := overrideCauses s } }).trans
      (plateJudgement_quiet r .ar _)).trans (plateJudgement_quiet r .bf _)).trans (plateJudgement_quiet r .br _)
  · exact .refl _

theorem alignScan_links (r : ScanRecord) (s : State) : (alignScan r s).links = s.links := by
  unfold alignScan; split <;> rfl

theorem returnScan_links (r : ScanRecord) (s : State) : (returnScan r s).links = s.links := by
  unfold returnScan; dsimp only; repeat' split
  all_goals rfl

theorem stationScan_links (r : ScanRecord) (s : State) : (stationScan r s).links = s.links := by
  unfold stationScan; split <;> rfl

theorem consumers_quiet (r : ScanRecord) (s : State) : Quiet s.links (consumers r s).links := by
  have watched : Quiet s.links (returnScan r (driveScan r (stationScan r s.drawn))).links := by
    rw [returnScan_links]
    have first := wheelScan_quiet .a r (stationScan r s.drawn)
    rw [stationScan_links] at first
    exact first.trans (wheelScan_quiet .b r _)
  unfold consumers
  dsimp only
  split
  · have last := plateScan_quiet r (alignScan r (returnScan r (driveScan r (stationScan r s.drawn))))
    rw [alignScan_links] at last
    exact watched.trans last
  · rw [alignScan_links]
    exact watched.trans (plateScan_quiet r _)

theorem afterScan_quiet (s : State) : Quiet s.links (afterScan s).links := by
  unfold afterScan toOff toWaiting loadScanTimer adopt startScan
  dsimp only
  repeat' split
  all_goals simp

theorem conversionDone_quiet (raw : Int) (s : State) : Quiet s.links (conversionDone raw s).links := by
  have judged (v : Bool) (u : State) : Quiet u.links (judgeScan v u).links := by
    unfold judgeScan setAcqFault
    dsimp only
    repeat' split
    all_goals simp
  have ended (u : State) : Quiet u.links (scanCompletion u).links := by
    unfold scanCompletion
    refine Quiet.trans ?_ (afterScan_quiet _)
    split
    · exact .refl _
    · unfold publishScan
      dsimp only
      exact (judged _ u).trans (consumers_quiet _ ((judgeScan _ u).setAcq _))
  have gained (c : Channel) : Quiet s.links (converted raw c s).links := by
    unfold converted zeroChecked zeroCheck
    dsimp only
    repeat' split
    all_goals simp
  cases hc : s.acq.activeList[s.acq.results.length]? with
  | none => rw [conversionDone_of_end hc]; exact ended s
  | some c =>
    rw [conversionDone_of_entry hc]
    split
    · exact gained c
    · exact (gained c).trans (ended _)

theorem scanExpiry_quiet (s : State) : Quiet s.links (scanExpiry s).links := by
  unfold scanExpiry startAtExpiry toOff startScan stopScanTimer adopt reloadScanTimer
  dsimp only
  repeat' split
  all_goals simp

theorem encoderChange_quiet (a b : Bool) (s : State) : Quiet s.links (encoderChange a b s).links := by
  have illegal (u : State) : Quiet u.links (illegalTransition u).links := by
    unfold illegalTransition setReference
    dsimp only
    split <;> simp
  have crossed (x y : Int) (u : State) : Quiet u.links (judgeCrossing x y u).links := by
    unfold judgeCrossing setFinal
    dsimp only
    split
    · have k := crossing_quiet u.depth.floor u.depth.ref { u with depth := { u.depth with floor := u.depth.floor + 1 } }
      split
      · simpa using k
      · exact k
    · exact .refl _
  have settled (x y : Int) (u : State) : Quiet u.links (judgeSettlement x y u).links := by
    unfold judgeSettlement
    split
    · split
      · exact settle_quiet _ u
      · exact .refl _
    · exact .refl _
  have counted (step : Int) : Quiet s.links (countStep step (setLines a b s)).links := by
    unfold countStep
    dsimp only
    split
    · split
      · exact Quiet.trans (crossed _ _ { setLines a b s with depth := { (setLines a b s).depth with
          count := (setLines a b s).depth.count + step } }) (settled _ _ _)
      · unfold judgeRearm
        dsimp only
        split <;> exact .refl _
    · exact illegal (setLines a b s)
  unfold encoderChange
  dsimp only
  split
  · exact .refl _
  · exact counted _
  · exact counted _
  · exact illegal (setLines a b s)

theorem feedWindow_quiet (s : State) : Quiet s.links (feedWindow s).links := by
  unfold feedWindow windowCompletion
  simp

theorem pickupEdge_quiet (d : DriveId) (s : State) : Quiet s.links (pickupEdge d s).links := by
  unfold pickupEdge
  dsimp only
  split <;> simp

theorem stall_quiet (w : WheelId) (s : State) : Quiet s.links (stall w s).links := by
  unfold stall
  dsimp only
  split
  all_goals refine Quiet.trans ?_ (publishWheel_quiet _ _ _)
  all_goals simp

theorem loadedTime_quiet (s : State) : Quiet s.links (loadedTime s).links := by
  have tick (w : WheelId) (u : State) : Quiet u.links (loadedTick w u).links := by
    unfold loadedTick
    dsimp only
    split <;> simp
  exact Quiet.trans (tick .a { s with drives := { s.drives with loadedTimer := some (s.clock + 100000) } }) (tick .b _)

theorem reportStale_quiet (s : State) : Quiet s.links (reportStale s).links := by
  unfold reportStale
  dsimp only
  split <;> simp

theorem pageDone_quiet (v : Bool) (s : State) : Quiet s.links (pageDone v s).links := by
  unfold pageDone closeWriteEnd setPanel
  dsimp only
  repeat' split
  all_goals simp

theorem eraseDone_quiet (blank : Bool) (s : State) : Quiet s.links (eraseDone blank s).links := by
  have ended (i : Nat) : Quiet s.links (eraseEnd i blank s).links := by unfold eraseEnd; split <;> simp
  unfold eraseDone
  split
  · rename_i i _ _
    simpa using ended i
  · rename_i i rest _ _
    unfold wipeNext eraseSlot
    split <;> simpa using ended i
  all_goals exact .refl _

/-- The events that change a queue. -/
def queueEvent : Instr → Bool
  | .warm | .frameReceived _ _ | .bytePauseTimeout _ | .replySent _ | .silenceExpiry _ | .unknownRequest => true
  | _ => false

theorem eventRule_quiet (c : Instr) (s : State) (h : queueEvent c = false) : Quiet s.links (eventRule c s).links := by
  cases c with
  | pageProgramCompletion v => exact pageDone_quiet v s
  | eraseCompletion blank => exact eraseDone_quiet blank s
  | scanTimerExpiry => exact scanExpiry_quiet s
  | conversionCompletion raw => exact conversionDone_quiet raw s
  | encoderTransition a b => exact encoderChange_quiet a b s
  | restitchStepCompletion =>
    simp only [eventRule]
    split
    · exact restitchDone_quiet _ s
    · exact .refl _
  | feedWindowExpiry => exact feedWindow_quiet s
  | pickupEdge d => exact pickupEdge_quiet d s
  | pickupTimeout d => simp [eventRule, pickupSilent]
  | loopTimerExpiry d =>
    cases d with
    | a => exact publishWheel_quiet .a (wheelPass .a s) s
    | b => exact publishWheel_quiet .b (wheelPass .b s) s
    | p => exact publishPump_quiet (pumpPass s) s
  | stallConfirmExpiry w => exact stall_quiet w s
  | reverseTimerExpiry w => exact publishWheel_quiet w _ s
  | loadedTimeExpiry => exact loadedTime_quiet s
  | travelTimerExpiry i => exact faultPlate_quiet i s
  | reportStaleExpiry => exact reportStale_quiet s
  | blockageConfirmExpiry | recoveryTimerExpiry => simp [eventRule]
  | wheelDemandExpiry => simp [eventRule, expireWheel, setExpired]
  | _ => first | exact .refl _ | cases h

theorem rowRule_quiet (c : Instr) (l : Link) (p : List Byte) (s : State) (hr : requestRow c ≠ none) :
    Quiet s.links (rowRule c l p s).1.links := by
  cases c with
  | openPanel =>
    refine payloadOf_keeps (P := fun u => Quiet s.links u.links) (.refl _) ?_
    unfold openPanelBody openPanel openGovernor
    dsimp only
    repeat' split
    all_goals simp
  | closePanel =>
    refine emptyPayload_keeps (P := fun u => Quiet s.links u.links) (.refl _) ?_
    unfold closePanelBody
    repeat' split
    all_goals try exact .refl _
    refine Quiet.trans ?_ (endWalkStage_quiet _)
    simp [setPanel]
  | abandonPanel =>
    refine emptyPayload_keeps (P := fun u => Quiet s.links u.links) (.refl _) ?_
    unfold abandonPanelBody setPanel
    split <;> simp
  | extendDepth =>
    refine payloadOf_keeps (P := fun u => Quiet s.links u.links) (.refl _) ?_
    unfold extendDepthBody extendDesign setFinal
    dsimp only
    repeat' split
    all_goals simp
  | setDepth =>
    refine payloadOf_keeps (P := fun u => Quiet s.links u.links) (.refl _) ?_
    unfold setDepthBody setReference placeFloor
    dsimp only
    repeat' split
    all_goals simp
  | setWheel =>
    exact writeGroup_keeps (P := fun u => Quiet s.links u.links) (.refl _) fun es => by
      simp [acceptWheel, renewWheel, setExpired, alignMode]
  | keepWheel =>
    exact emptyPayload_keeps (P := fun u => Quiet s.links u.links) (.refl _) (by
      simp [keepWheelBody, renewWheel, setExpired])
  | setFeed => exact writeGroup_keeps (P := fun u => Quiet s.links u.links) (.refl _) fun es => .refl _
  | setTuning => exact writeGroup_keeps (P := fun u => Quiet s.links u.links) (.refl _) fun es => .refl _
  | setPump => exact writeGroup_keeps (P := fun u => Quiet s.links u.links) (.refl _) fun es => .refl _
  | setAcquisition =>
    simp only [rowRule, setAcquisitionBody]
    split
    · exact .refl _
    · unfold acceptAcquisition toOff leaveOff startScan loadScanTimer adopt reloadScanTimer
      dsimp only
      repeat' split
      all_goals simp
  | restartDrive =>
    refine payloadOf_keeps (P := fun u => Quiet s.links u.links) (.refl _) ?_
    unfold restartDriveBody
    split
    · exact .refl _
    · split
      · exact publishWheel_quiet _ _ s
      · exact .refl _
  | clearPlateFault =>
    refine payloadOf_keeps (P := fun u => Quiet s.links u.links) (.refl _) ?_
    have each (ids : List PlateId) (u : State) : (ids.foldl clearPlate u).links = u.links := by
      induction ids generalizing u with
      | nil => rfl
      | cons i ids ih =>
        rw [List.foldl_cons, ih]
        unfold clearPlate
        split <;> simp
    unfold clearPlateFaultBody
    split
    · exact .refl _
    · split
      · simp [each]
      · exact .refl _
  | takePump =>
    refine emptyPayload_keeps (P := fun u => Quiet s.links u.links) (.refl _) ?_
    unfold takePumpBody transferPump
    repeat' split
    all_goals simp
  | reclaimPump =>
    refine emptyPayload_keeps (P := fun u => Quiet s.links u.links) (.refl _) ?_
    unfold reclaimPumpBody transferPump
    repeat' split
    all_goals simp
  | releasePump =>
    refine emptyPayload_keeps (P := fun u => Quiet s.links u.links) (.refl _) ?_
    unfold releasePumpBody
    split <;> exact .refl _
  | reportReturn =>
    exact payloadOf_keeps (P := fun u => Quiet s.links u.links) (.refl _) (by simp [reportReturnBody, takeReport])
  | readSnapshot =>
    refine emptyPayload_keeps (P := fun u => Quiet s.links u.links) (.refl _) ?_
    unfold readSnapshotBody
    split <;> exact .refl _
  | readStations =>
    refine payloadOf_keeps (P := fun u => Quiet s.links u.links) (.refl _) ?_
    unfold readStationsBody stationsOf evaluateStations
    dsimp only
    repeat' split
    all_goals exact .refl _
  | cancelHold =>
    refine emptyPayload_keeps (P := fun u => Quiet s.links u.links) (.refl _) ?_
    unfold cancelHoldBody
    split <;> exact .refl _
  | readArchive =>
    refine payloadOf_keeps (P := fun u => Quiet s.links u.links) (.refl _) ?_
    unfold readArchiveBody
    dsimp only
    repeat' split
    all_goals exact .refl _
  | eraseSlot =>
    refine payloadOf_keeps (P := fun u => Quiet s.links u.links) (.refl _) ?_
    unfold eraseSlotBody
    dsimp only
    repeat' split
    all_goals exact .refl _
  | wipeArchive =>
    refine emptyPayload_keeps (P := fun u => Quiet s.links u.links) (.refl _) ?_
    unfold wipeArchiveBody wipeNext
    repeat' split
    all_goals first | exact .refl _ | simp
  | clearTallies =>
    refine emptyPayload_keeps (P := fun u => Quiet s.links u.links) (.refl _) ?_
    unfold clearTalliesBody
    split <;> exact .refl _
  | restart => exact emptyPayload_keeps (P := fun u => Quiet s.links u.links) (.refl _) ⟨rfl, rfl, rfl, rfl, rfl, rfl, rfl⟩
  | clearFlags => exact payloadOf_keeps (P := fun u => Quiet s.links u.links) (.refl _) (quiet_setLink l rfl rfl)
  | setMask => exact payloadOf_keeps (P := fun u => Quiet s.links u.links) (.refl _) (quiet_setLink l rfl rfl)
  | readStatus | readDemands | readTallies | readFlags | archiveStatus =>
    exact emptyPayload_keeps (P := fun u => Quiet s.links u.links) (.refl _) (.refl _)
  | _ => exact absurd rfl hr

end Sys2Proof.Machine
end

section
/-! The bounds that every step keeps: demand groups, differential and drives (R153, R90, R104), plates, backlog, counters,
queues and marks (R127, R142, R122, R165, R159); the direction output (R108) and the counters (R122) at each command. -/

namespace Sys2Proof.Machine

open Sys2Proof.Safety

/-! ## The drives at each command -/

/-- What any command but the resets does to the drives. -/
theorem exec_turned {c : Instr} {s t : State} (h : exec c s = .next t) (h1 : c ≠ .cold) (h2 : c ≠ .resetLineAssert) :
    DrivesTurned (Steered s) s.drives t.drives
    ∨ ((c = .openPanel ∨ c = .clearTallies) ∧ t.drives = zeroTallies s.drives) := by
  rcases exec_cases h with
    rfl | ⟨e, -⟩ | ⟨e, -⟩ | ⟨a, b, rfl, rfl⟩ | ⟨kind, acc, l, f, hr, -, rfl⟩ | ⟨due, -, -, he, rfl⟩
  · exact .inl (.refl _)
  · exact absurd e h1
  · exact absurd e h2
  · exact .inl (.refl _)
  · have row : requestRow c ≠ none := by rw [hr]; nofun
    have taken : (takeHead l s).drives = s.drives := takeHead_touches l s .drives (by decide)
    have replied (a : Answer) (u : State) : (buildReply l f a u).drives = u.drives :=
      buildReply_touches l f a u .drives (by decide)
    rcases serve_cases acc l f (rowRule c) s with ⟨a, e⟩ | ⟨a, -, e⟩ <;> rw [e, replied]
    · rw [taken]; exact .inl (.refl _)
    · rw [← taken]; exact rowRule_turned c l f.payload (takeHead l s) row
  · exact .inl (eventRule_turned (s := s.reach due) c (mt (eventTime_reach s due c).mp (by rw [he]; nofun)))

theorem zeroTallies_dirOut (s : State) {t : State} (h : t.drives = zeroTallies s.drives) (w : WheelId) :
    (t.wheel w).dirOut = (s.wheel w).dirOut := by
  cases w <;> simp [State.wheel, h, zeroTallies]

/-- Settles O14: the flip asks for the valve closed; WARM and COLD close it. -/
theorem directionChangesOnlyWithValveClosed : Obligations.DirectionChangesOnlyWithValveClosed := by
  intro c s t w h changed
  by_cases h1 : c = .cold
  · subst h1; cases h; cases w <;> rfl
  by_cases h2 : c = .resetLineAssert
  · subst h2; cases h; cases w <;> rfl
  rcases exec_turned h h1 h2 with turned | ⟨-, zeroed⟩
  · cases w with
    | a => exact turned.a.direction changed
    | b => exact turned.b.direction changed
  · exact absurd (zeroTallies_dirOut s zeroed w) changed

/-- The counters of drives that only turned have only counted. -/
theorem counters_counted {ok : Prop} {x y : Drives} (h : DrivesTurned ok x y) :
    List.Forall₂ Counted x.counters y.counters := by
  obtain ⟨a, b, p⟩ := h
  exact .cons a.rev (.cons b.rev (.cons p.rev (.cons a.loaded (.cons b.loaded (List.rel_append a.bands b.bands)))))

theorem counters_zeroed (d : Drives) : ∀ c ∈ (zeroTallies d).counters, c.value = 0 ∧ c.near = false := by
  simp [zeroTallies, Drives.counters]

/-- Settles O15: a counter that is not zeroed with all others only counts. -/
theorem countersDecreaseOnlyWhenZeroed : Obligations.CountersDecreaseOnlyWhenZeroed := by
  intro c s t h hs
  obtain ⟨-, -, bounded⟩ := hs
  have zero : ∀ y ∈ counters State.reset, y.value = 0 ∧ y.near = false := by decide
  by_cases h1 : c = .cold
  · subst h1; cases h; exact .inr ⟨.inr (.inr (.inl rfl)), zero⟩
  by_cases h2 : c = .resetLineAssert
  · subst h2; cases h; exact .inr ⟨.inr (.inr (.inr rfl)), zero⟩
  rcases exec_turned h h1 h2 with turned | ⟨named, zeroed⟩
  · refine .inl fun i x y hx hy => ?_
    have counted := (counters_counted turned).get (i := i)
    obtain ⟨hi, rfl⟩ := List.getElem?_eq_some_iff.mp hx
    obtain ⟨hj, rfl⟩ := List.getElem?_eq_some_iff.mp hy
    exact (counted hi hj (bounded _ (List.getElem_mem hi))).1
  · refine .inr ⟨named.imp_right fun g => .inl g, ?_⟩
    unfold counters
    rw [zeroed]
    exact counters_zeroed _

theorem counterLaw_iff (s : State) : CounterLaw s ↔ s.drives.a.bands.length = 6 ∧ s.drives.b.bands.length = 6
    ∧ ∀ c ∈ s.drives.counters, c.value ≤ 16777215 := .rfl

theorem exec_counterLaw {c : Instr} {s t : State} (h : exec c s = .next t) (hs : CounterLaw s) : CounterLaw t := by
  have cold : CounterLaw State.reset := ⟨rfl, rfl, by decide⟩
  by_cases h1 : c = .cold
  · subst h1; cases h; exact cold
  by_cases h2 : c = .resetLineAssert
  · subst h2; cases h; exact cold
  obtain ⟨ha, hb, bounded⟩ := (counterLaw_iff s).mp hs
  rcases exec_turned h h1 h2 with turned | ⟨-, zeroed⟩
  · refine (counterLaw_iff t).mpr ⟨turned.a.bands.length_eq ▸ ha, turned.b.bands.length_eq ▸ hb, fun y hy => ?_⟩
    obtain ⟨len, all⟩ := List.forall₂_iff_get.mp (counters_counted turned)
    obtain ⟨i, hi, rfl⟩ := List.getElem_of_mem hy
    exact (all i (len ▸ hi) hi (bounded _ (List.getElem_mem (len ▸ hi)))).2
  · refine (counterLaw_iff t).mpr ?_
    rw [zeroed]
    exact ⟨rfl, rfl, fun y hy => by rw [(counters_zeroed _ y hy).1]; decide⟩

/-! ## Plates -/

/-- The demands for the plates lie in their range. -/
def DemandsIn (d : PlateDemands) : Prop := ∀ i, 0 ≤ d.of i ∧ d.of i ≤ 100

theorem demandsIn_of {d : PlateDemands} (af : 0 ≤ d.af ∧ d.af ≤ 100) (ar : 0 ≤ d.ar ∧ d.ar ≤ 100)
    (bf : 0 ≤ d.bf ∧ d.bf ≤ 100) (br : 0 ≤ d.br ∧ d.br ≤ 100) : DemandsIn d := fun i => by cases i <;> assumption

theorem evaluateAlign_demands {s : State} (h : DemandsIn s.align.demands) (r : ScanRecord) :
    DemandsIn (evaluateAlign r s).demands := by
  have clamped (x : Int) : 0 ≤ clamp 0 100 x ∧ clamp 0 100 x ≤ 100 := clamp_mem (by decide) x
  have none : 0 ≤ (0 : Int) ∧ (0 : Int) ≤ 100 := by decide
  unfold evaluateAlign
  split
  · exact demandsIn_of none none none none
  · split
    · exact demandsIn_of (clamped _) (clamped _) (clamped _) (clamped _)
    · split
      · exact h
      · split
        · exact h
        · split
          · exact h
          · split
            · exact h
            · exact demandsIn_of (clamped _) (clamped _) (clamped _) (clamped _)

theorem alignScan_demands {s : State} (h : DemandsIn s.align.demands) (r : ScanRecord) :
    DemandsIn (alignScan r s).align.demands := by
  unfold alignScan
  split
  · exact evaluateAlign_demands h r
  · exact h

theorem judgePlate_outputs {p : Plate} (h : PlateOutputs p) (band q : Int) {demand : Int} (due : Nat)
    (h1 : 0 ≤ demand) (h2 : demand ≤ 100) : PlateOutputs (judgePlate band q demand due p) := by
  obtain ⟨extend, retract, -, -⟩ := h
  have entered (st : PlateState) := enter_outputs (p := { p with lastStroke := some q, effective := demand }) st h1 h2
  have kept : PlateOutputs { p with lastStroke := some q, effective := demand } := ⟨extend, retract, h1, h2⟩
  unfold judgePlate
  dsimp only
  split
  · split
    · exact entered .extending
    · split
      · exact entered .retracting
      · exact entered .hold
  · split
    · exact entered .hold
    · exact kept
  · split
    · exact entered .hold
    · exact kept
  · exact kept

/-- Every plate has the outputs of its state. -/
def OutputsHeld (s : State) : Prop := ∀ i, PlateOutputs (s.plate i)

theorem outputs_setPlate {s : State} (h : OutputsHeld s) (i : PlateId) {p : Plate} (hp : PlateOutputs p) :
    OutputsHeld (s.setPlate i p) := fun j => by
  rw [setPlate_plate]
  split
  · exact hp
  · exact h j

theorem faultPlate_outputs {s : State} (h : OutputsHeld s) (i : PlateId) : OutputsHeld (faultPlate i s) :=
  outputs_setPlate h i (enter_outputs .fault (h i).2.2.1 (h i).2.2.2)

theorem plateJudgement_law {s : State} (h : OutputsHeld s) (hd : DemandsIn s.align.demands) (r : ScanRecord)
    (i : PlateId) : OutputsHeld (plateJudgement r i s) := by
  unfold plateJudgement
  split
  · exact h
  · split
    · exact h
    · split
      · exact faultPlate_outputs h i
      · refine outputs_setPlate h i (judgePlate_outputs (h i) _ _ _ ?_ ?_)
        · split
          · exact le_rfl
          · exact (hd i).1
        · split
          · decide
          · exact (hd i).2

theorem plateScan_law {s : State} (h : OutputsHeld s) (hd : DemandsIn s.align.demands) (r : ScanRecord) :
    OutputsHeld (plateScan r s) := by
  have kept (i : PlateId) (u : State) : (plateJudgement r i u).align = u.align :=
    plateJudgement_touches r i u .align (by decide)
  unfold plateScan
  split
  · have start : OutputsHeld { s with plates := { s.plates with override := overrideCauses s } } := fun i => by
      have same : State.plate { s with plates := { s.plates with override := overrideCauses s } } i = s.plate i := by
        cases i <;> rfl
      rw [same]; exact h i
    have af := plateJudgement_law start hd r .af
    have ar := plateJudgement_law af (by rw [kept]; exact hd) r .ar
    have bf := plateJudgement_law ar (by rw [kept, kept]; exact hd) r .bf
    exact plateJudgement_law bf (by rw [kept, kept, kept]; exact hd) r .br
  · exact h

theorem plateLaw_congr {s t : State} (h : PlateLaw s) (plates : t.plates = s.plates)
    (demands : t.align.demands = s.align.demands) : PlateLaw t := by
  obtain ⟨outputs, within⟩ := h
  refine ⟨fun i => ?_, demands ▸ within⟩
  have same : t.plate i = s.plate i := by unfold State.plate; rw [plates]
  rw [same]; exact outputs i

theorem consumers_plateLaw {s : State} (h : PlateLaw s) (r : ScanRecord) : PlateLaw (consumers r s) := by
  have watched : PlateLaw (returnScan r (driveScan r (stationScan r s.drawn))) := by
    have t : Touches [.table, .drives, .ret] s.drawn (returnScan r (driveScan r (stationScan r s.drawn))) :=
      touches_trans (touches_trans (touches_mono (stationScan_touches r _) (by decide))
        (touches_mono (driveScan_touches r _) (by decide))) (touches_mono (returnScan_touches r _) (by decide))
    have align : (returnScan r (driveScan r (stationScan r s.drawn))).align = s.align := t .align (by decide)
    exact plateLaw_congr h (t .plates (by decide)) (by rw [align])
  have judged {u : State} (h : PlateLaw u) : PlateLaw (plateScan r u) := by
    have align : (plateScan r u).align = u.align := plateScan_touches r u .align (by decide)
    exact ⟨plateScan_law h.1 h.2 r, by rw [align]; exact h.2⟩
  have aligned {u : State} (h : PlateLaw u) : PlateLaw (alignScan r u) := by
    have plates : (alignScan r u).plates = u.plates := alignScan_touches r u .plates (by decide)
    refine ⟨fun i => ?_, alignScan_demands h.2 r⟩
    have same : (alignScan r u).plate i = u.plate i := by unfold State.plate; rw [plates]
    rw [same]; exact h.1 i
  unfold consumers
  dsimp only
  split
  · exact judged (aligned watched)
  · exact aligned (judged watched)

/-- A change outside the plates and the Alignment Unit. -/
theorem plateLaw_touches {ps : List Part} {s t : State} (h : PlateLaw s) (ht : Touches ps s t) (hp : Part.plates ∉ ps)
    (ha : Part.align ∉ ps) : PlateLaw t := by
  have align : t.align = s.align := ht .align ha
  exact plateLaw_congr h (ht .plates hp) (by rw [align])

theorem conversionDone_plateLaw {s : State} (h : PlateLaw s) (raw : Int) : PlateLaw (conversionDone raw s) := by
  have ended {u : State} (h : PlateLaw u) : PlateLaw (scanCompletion u) := by
    unfold scanCompletion
    refine plateLaw_touches (s := if u.acq.state = .settling then u else publishScan u) ?_ (afterScan_touches _)
      (by decide) (by decide)
    split
    · exact h
    · unfold publishScan
      dsimp only
      refine consumers_plateLaw ?_ _
      exact plateLaw_touches (plateLaw_touches h (judgeScan_touches _ u) (by decide) (by decide)) (setAcq_touches _ _)
        (by decide) (by decide)
  cases hc : s.acq.activeList[s.acq.results.length]? with
  | none => rw [conversionDone_of_end hc]; exact ended h
  | some c =>
    have gained := plateLaw_touches h (converted_touches raw c s) (by decide) (by decide)
    rw [conversionDone_of_entry hc]
    split
    · exact gained
    · exact ended gained

theorem clearPlates_outputs (ids : List PlateId) {s : State} (h : OutputsHeld s) :
    OutputsHeld (ids.foldl clearPlate s) := by
  induction ids generalizing s with
  | nil => exact h
  | cons i ids ih =>
    refine ih ?_
    unfold clearPlate
    split
    · exact outputs_setPlate h i (enter_outputs .hold (h i).2.2.1 (h i).2.2.2)
    · exact h

theorem rowRule_plateLaw (c : Instr) (l : Link) (p : List Byte) {s : State} (h : PlateLaw s) (hr : requestRow c ≠ none) :
    PlateLaw (rowRule c l p s).1 := by
  by_cases untouched : Part.plates ∉ touched c ∧ Part.align ∉ touched c
  · exact plateLaw_touches h (rowRule_touches c l p s) untouched.1 untouched.2
  · cases c with
    | setWheel =>
      refine writeGroup_keeps h fun es => ?_
      simpa [PlateLaw, State.plate, acceptWheel, renewWheel, setExpired, alignMode] using h
    | setTuning => exact writeGroup_keeps h fun es => h
    | clearPlateFault =>
      refine payloadOf_keeps h ?_
      unfold clearPlateFaultBody
      split
      · exact h
      · split
        · rename_i ids _ _
          have align : (ids.foldl clearPlate s).align = s.align := clearPlates_touches ids s .align (by decide)
          exact ⟨clearPlates_outputs ids h.1, by rw [align]; exact h.2⟩
        · exact h
    | _ => first | exact absurd rfl hr | exact absurd (by decide) untouched

theorem eventRule_plateLaw (c : Instr) {s : State} (h : PlateLaw s) (he : eventTime s c ≠ none) :
    PlateLaw (eventRule c s) := by
  by_cases untouched : Part.plates ∉ touched c ∧ Part.align ∉ touched c
  · exact plateLaw_touches h (eventRule_touches c s) untouched.1 untouched.2
  · cases c with
    | warm =>
      have start : PlateOutputs ({} : Plate) := by simp [PlateOutputs]
      refine ⟨fun i => ?_, fun i => ?_⟩
      · cases i <;> simpa [eventRule, warmState, warmPlates, State.plate] using start
      · cases i <;> simp [eventRule, warmState, PlateDemands.of]
    | conversionCompletion raw => exact conversionDone_plateLaw h raw
    | travelTimerExpiry i => exact ⟨faultPlate_outputs h.1 i, by simpa [eventRule, faultPlate] using h.2⟩
    | _ => first | exact absurd rfl he | exact absurd (by simp [touched]) untouched

theorem cold_plateLaw (s : State) : PlateLaw (coldState s) := by
  constructor <;> intro i <;> cases i <;> simp [coldState, State.reset, State.plate, PlateOutputs, PlateDemands.of]

theorem exec_plateLaw {c : Instr} {s t : State} (h : exec c s = .next t) (hs : PlateLaw s) : PlateLaw t :=
  exec_keeps h hs (fun _ _ h => h) (fun _ _ h => h) (fun _ => cold_plateLaw s) (fun _ h => h) (fun _ _ h => h)
    (fun l p _ hr h => rowRule_plateLaw c l p h hr) fun _ _ he h => eventRule_plateLaw c h he

/-! ## The backlog -/

theorem enterReturn_backlog (st : ReturnState) (s : State) : (enterReturn st s).ret.backlog = s.ret.backlog := by
  rw [enterReturn_ret]; split <;> rfl

theorem returnScan_backlog (r : ScanRecord) (s : State) : (returnScan r s).ret.backlog = s.ret.backlog := by
  unfold returnScan
  dsimp only
  repeat' split
  all_goals rfl

theorem conversionDone_backlog (raw : Int) (s : State) : (conversionDone raw s).ret.backlog = s.ret.backlog := by
  have consumed (r : ScanRecord) (u : State) : (consumers r u).ret.backlog = u.ret.backlog := by
    have aligned (v : State) : (alignScan r v).ret = v.ret := alignScan_touches r v .ret (by decide)
    have plates (v : State) : (plateScan r v).ret = v.ret := plateScan_touches r v .ret (by decide)
    have stations : (driveScan r (stationScan r u.drawn)).ret = u.ret :=
      (touches_trans (touches_mono (stationScan_touches r u.drawn) (by decide : [Part.table] ⊆ [.table, .drives]))
        (touches_mono (driveScan_touches r _) (by decide))) .ret (by decide)
    unfold consumers
    dsimp only
    split
    · rw [plates, aligned, returnScan_backlog, stations]
    · rw [aligned, plates, returnScan_backlog, stations]
  have ended (u : State) : (scanCompletion u).ret.backlog = u.ret.backlog := by
    have after (v : State) : (afterScan v).ret = v.ret := afterScan_touches v .ret (by decide)
    have judged (b : Bool) (v : State) : (judgeScan b v).ret = v.ret := judgeScan_touches b v .ret (by decide)
    unfold scanCompletion
    rw [after]
    split
    · rfl
    · unfold publishScan
      dsimp only
      rw [consumed]
      exact congrArg (·.backlog) (judged _ u)
  cases hc : s.acq.activeList[s.acq.results.length]? with
  | none => rw [conversionDone_of_end hc]; exact ended s
  | some c =>
    have gained : (converted raw c s).ret = s.ret := converted_touches raw c s .ret (by decide)
    rw [conversionDone_of_entry hc]
    split
    · rw [gained]
    · rw [ended, gained]

theorem publishPump_backlog (d : PumpDrive) (s : State) : (publishPump d s).ret.backlog = s.ret.backlog := by
  unfold publishPump pumpStarted pumpStopped
  dsimp only
  repeat' split
  all_goals first | rfl | exact enterReturn_backlog _ _

theorem rowRule_backlogLaw (c : Instr) (l : Link) (p : List Byte) {s : State} (h : BacklogLaw s)
    (hr : requestRow c ≠ none) : BacklogLaw (rowRule c l p s).1 := by
  by_cases untouched : Part.ret ∉ touched c
  · have ret : (rowRule c l p s).1.ret = s.ret := rowRule_touches c l p s .ret untouched
    unfold BacklogLaw; rw [ret]; exact h
  · cases c with
    | openPanel =>
      refine payloadOf_keeps h ?_
      unfold openPanelBody
      split
      · exact h
      · dsimp only
        split
        · exact h
        · have ret : (openPanel (geometryOf p) s).ret = { s.ret with backlog := 0 } := by
            unfold openPanel
            exact openGovernor_touches _ _ .ret (by decide)
          unfold BacklogLaw
          rw [ret]
          exact ⟨le_rfl, (by decide : (0 : Int) ≤ 1000000)⟩
    | reportReturn =>
      refine payloadOf_keeps h ?_
      unfold BacklogLaw
      simp only [reportReturnBody, takeReport, recomputeLimit, enterReturn_backlog, recomputeCapacity, raiseIf_ret]
      exact h
    | _ => first | exact absurd rfl hr | exact absurd (by decide) untouched

theorem eventRule_backlogLaw (c : Instr) {s : State} (h : BacklogLaw s) (he : eventTime s c ≠ none) :
    BacklogLaw (eventRule c s) := by
  by_cases untouched : Part.ret ∉ touched c
  · have ret : (eventRule c s).ret = s.ret := eventRule_touches c s .ret untouched
    unfold BacklogLaw; rw [ret]; exact h
  · unfold BacklogLaw
    cases c with
    | conversionCompletion raw => simp only [eventRule, conversionDone_backlog]; exact h
    | feedWindowExpiry =>
      simp only [eventRule, feedWindow, windowCompletion, recomputeLimit, enterReturn_backlog, recomputeCapacity]
      exact clamp_mem (by decide) _
    | loopTimerExpiry d =>
      cases d with
      | a => simp only [eventRule, loopPass, publishWheel_eq, govern_ret, setWheel_ret]; exact h
      | b => simp only [eventRule, loopPass, publishWheel_eq, govern_ret, setWheel_ret]; exact h
      | p => simp only [eventRule, loopPass, publishPump_backlog]; exact h
    | reportStaleExpiry =>
      simp only [eventRule, reportStale, recomputeLimit]
      split
      · rw [enterReturn_backlog]; exact h
      · exact h
    | blockageConfirmExpiry => simp only [eventRule, enterReturn_backlog]; exact h
    | recoveryTimerExpiry => simp only [eventRule, enterReturn_backlog]; exact h
    | _ => first | exact absurd rfl he | exact absurd (by simp [touched]) untouched

theorem exec_backlogLaw {c : Instr} {s t : State} (h : exec c s = .next t) (hs : BacklogLaw s) : BacklogLaw t :=
  exec_keeps h hs (fun _ _ h => h) (fun _ _ h => h) (fun _ => ⟨le_rfl, (by decide : (0 : Int) ≤ 1000000)⟩)
    (fun _ h => h) (fun _ _ h => h) (fun l p _ hr h => rowRule_backlogLaw c l p h hr)
    fun _ _ he h => eventRule_backlogLaw c h he

/-! ## The released marks -/

theorem rowRule_releaseLaw (c : Instr) (l : Link) (p : List Byte) {s : State} (h : ReleaseLaw s)
    (hr : requestRow c ≠ none) : ReleaseLaw (rowRule c l p s).1 := by
  obtain ⟨plant, cab⟩ := h
  by_cases untouched : Part.demand ∉ touched c
  · have demand : (rowRule c l p s).1.demand = s.demand := rowRule_touches c l p s .demand untouched
    unfold ReleaseLaw; rw [demand]; exact ⟨plant, cab⟩
  · cases c with
    | setWheel =>
      refine writeGroup_keeps ⟨plant, cab⟩ fun es => ?_
      simpa [ReleaseLaw, acceptWheel, renewWheel, setExpired, alignMode] using ⟨plant, cab⟩
    | keepWheel =>
      refine emptyPayload_keeps ⟨plant, cab⟩ ?_
      simpa [ReleaseLaw, keepWheelBody, renewWheel, setExpired] using ⟨plant, cab⟩
    | setFeed => exact writeGroup_keeps ⟨plant, cab⟩ fun es => ⟨plant, cab⟩
    | setTuning => exact writeGroup_keeps ⟨plant, cab⟩ fun es => ⟨plant, cab⟩
    | setPump => exact writeGroup_keeps ⟨plant, cab⟩ fun es => ⟨plant, cab⟩
    | takePump =>
      refine emptyPayload_keeps ⟨plant, cab⟩ ?_
      unfold takePumpBody
      split
      · rename_i owner; exact ⟨fun _ => rfl, fun _ => cab owner⟩
      · split
        · exact ⟨fun _ => rfl, fun _ => rfl⟩
        · exact ⟨plant, cab⟩
    | reclaimPump =>
      refine emptyPayload_keeps ⟨plant, cab⟩ ?_
      unfold reclaimPumpBody
      split
      · rename_i owner; exact ⟨fun _ => plant owner, fun _ => rfl⟩
      · split
        · exact ⟨fun _ => rfl, fun _ => rfl⟩
        · exact ⟨plant, cab⟩
    | releasePump =>
      refine emptyPayload_keeps ⟨plant, cab⟩ ?_
      unfold releasePumpBody
      split
      · rename_i owner
        exact ⟨plant, fun g => absurd (owner.symm.trans g) nofun⟩
      · rename_i owner
        exact ⟨fun g => absurd (owner.symm.trans g) nofun, cab⟩
    | _ => first | exact absurd rfl hr | exact absurd (by decide) untouched

theorem eventRule_releaseLaw (c : Instr) {s : State} (h : ReleaseLaw s) (he : eventTime s c ≠ none) :
    ReleaseLaw (eventRule c s) := by
  by_cases untouched : Part.demand ∉ touched c
  · have demand : (eventRule c s).demand = s.demand := eventRule_touches c s .demand untouched
    unfold ReleaseLaw; rw [demand]; exact h
  · cases c with
    | warm => simpa [ReleaseLaw, eventRule, warmState, warmDemand] using h
    | wheelDemandExpiry => simpa [ReleaseLaw, eventRule, expireWheel, setExpired] using h
    | _ => first | exact absurd rfl he | exact absurd (by simp [touched]) untouched

theorem exec_releaseLaw {c : Instr} {s t : State} (h : exec c s = .next t) (hs : ReleaseLaw s) : ReleaseLaw t :=
  exec_keeps h hs (fun _ _ h => h) (fun _ _ h => h) (fun _ => ⟨fun _ => rfl, fun _ => rfl⟩)
    (fun _ h => h) (fun _ _ h => h) (fun l p _ hr h => rowRule_releaseLaw c l p h hr)
    fun _ _ he h => eventRule_releaseLaw c h he

/-! ## The queues -/

/-- The queues of one link lie in their bounds. -/
def LinkState.Bounded (x : LinkState) : Prop := x.rx.length ≤ 4 ∧ x.replies.length ≤ 4

/-- The queues' law, of the links. -/
def QueuesBounded (n : Links) : Prop :=
  (n.cab.Bounded ∧ n.plant.Bounded ∧ n.record.Bounded) ∧ n.levelZeroGrants ≤ 4

theorem queueLaw_iff (s : State) : QueueLaw s ↔ QueuesBounded s.links := by
  refine ⟨fun ⟨each, grants⟩ => ⟨⟨each .cab, each .plant, each .record⟩, grants⟩, fun ⟨⟨cab, plant, record⟩, grants⟩ =>
    ⟨fun l => ?_, grants⟩⟩
  cases l <;> assumption

theorem queues_quiet {n m : Links} (h : QueuesBounded n) (g : Quiet n m) : QueuesBounded m := by
  unfold QueuesBounded LinkState.Bounded at *
  rw [g.cabRx, g.plantRx, g.recordRx, g.cabReplies, g.plantReplies, g.recordReplies, g.grants]
  exact h

theorem queues_link {s : State} (h : QueuesBounded s.links) (l : Link) : (s.link l).Bounded := by
  obtain ⟨⟨cab, plant, record⟩, -⟩ := h
  cases l <;> assumption

theorem queues_setLink {s : State} (h : QueuesBounded s.links) (l : Link) {x : LinkState} (hx : x.Bounded) :
    QueuesBounded (s.setLink l x).links := by
  obtain ⟨⟨cab, plant, record⟩, grants⟩ := h
  cases l
  · exact ⟨⟨hx, plant, record⟩, grants⟩
  · exact ⟨⟨cab, hx, record⟩, grants⟩
  · exact ⟨⟨cab, plant, hx⟩, grants⟩

/-- A level-0 link is granted beside a waiting Record request only while fewer than four were. -/
theorem grants_of_levelZero {n : Links} {l : Link} (h : grantLink n = some l) (hl : l ≠ .record)
    (hw : n.record.waits = true) : n.levelZeroGrants < 4 := by
  unfold grantLink at h
  rw [hw] at h
  by_contra full
  simp only [Bool.true_and, not_lt.mp full, decide_true, Bool.or_true, if_true] at h
  split at h
  · cases h
  · exact hl (Option.some.inj h).symm

theorem noteGrant_grants {n : Links} {l : Link} (h : grantLink n = some l) (hn : n.levelZeroGrants ≤ 4) :
    (noteGrant l n).levelZeroGrants ≤ 4 := by
  have counted (hl : l ≠ .record) : n.levelZeroGrants + (if n.record.waits then 1 else 0) ≤ 4 := by
    split
    · have := grants_of_levelZero h hl (by assumption); omega
    · omega
  cases l with
  | cab => exact counted nofun
  | plant => exact counted nofun
  | record => exact Nat.zero_le _

theorem grant_link {s : State} {l : Link} {f : Frame} (h : grant s = some (l, f)) : grantLink s.links = some l := by
  unfold grant at h
  split at h
  · cases h
  · rename_i k e
    obtain ⟨f', -, e'⟩ := Option.map_eq_some_iff.mp h
    rw [e, (Prod.mk.inj e').1]

/-- The taken head leaves room for the reply. -/
theorem takeHead_bounded {s : State} (h : QueuesBounded s.links) {l : Link} {f : Frame} (hg : grant s = some (l, f)) :
    QueuesBounded (takeHead l s).links ∧ ((takeHead l s).link l).replies.length < 4 := by
  have granted := grant_link hg
  have room : (s.link l).replies.length < 4 := by
    have waits := (waits_iff (s.link l)).mp (grantLink_waits granted)
    exact waits.2
  have noted : QueuesBounded (noteGrant l s.links) := by
    obtain ⟨each, grants⟩ := h
    refine ⟨?_, noteGrant_grants granted grants⟩
    cases l <;> exact each
  have bounded := queues_link (s := { s with links := noteGrant l s.links }) noted l
  refine ⟨queues_setLink (s := { s with links := noteGrant l s.links }) noted l ⟨?_, bounded.2⟩, ?_⟩
  · exact (List.length_tail.trans_le (Nat.sub_le _ 1)).trans bounded.1
  · cases l <;> exact room

theorem buildReply_bounded {s : State} (h : QueuesBounded s.links) {l : Link} (hr : (s.link l).replies.length < 4)
    (f : Frame) (a : Answer) : QueuesBounded (buildReply l f a s).links := by
  refine queues_setLink h l ⟨(queues_link h l).1, ?_⟩
  simp only [List.length_append, List.length_singleton]
  omega

theorem receiveByte_bounded {x : LinkState} (h : x.Bounded) (silence : Nat) (b : Byte) :
    (receiveByte silence x b).Bounded := by
  have accepted (f : Frame) {y : LinkState} (hy : y.Bounded) : (acceptFrame silence f y).Bounded := by
    unfold acceptFrame
    dsimp only
    split
    · refine ⟨?_, hy.2⟩
      simp only [List.length_append, List.length_singleton]
      omega
    · exact hy
  unfold receiveByte
  dsimp only
  repeat' split
  all_goals first | exact h | exact accepted _ h

theorem receiveBytes_bounded {s : State} (h : QueuesBounded s.links) (l : Link) (bytes : List Byte) :
    QueuesBounded (receiveBytes l bytes s).links := by
  have folded {x : LinkState} (hx : x.Bounded) : (bytes.foldl (receiveByte (s.inMs 3000)) x).Bounded := by
    induction bytes generalizing x with
    | nil => exact hx
    | cons b bytes ih => exact ih (receiveByte_bounded hx _ b)
  unfold receiveBytes
  split
  · exact h
  · exact queues_setLink h l (folded (queues_link h l))

theorem eventRule_bounded (c : Instr) {s : State} (h : QueuesBounded s.links) (he : eventTime s c ≠ none) :
    QueuesBounded (eventRule c s).links := by
  cases hq : queueEvent c with
  | false => exact queues_quiet h (eventRule_quiet c s hq)
  | true =>
    cases c with
    | warm =>
      have start : LinkState.Bounded {} := by simp [LinkState.Bounded]
      have links : QueuesBounded (warmLinks s.links) := ⟨⟨start, start, start⟩, Nat.zero_le _⟩
      exact queues_quiet links (by simp [eventRule, warmState])
    | frameReceived l bytes => exact receiveBytes_bounded h l bytes
    | bytePauseTimeout l => exact queues_setLink h l (queues_link h l)
    | replySent l =>
      simp only [eventRule, sendReply]
      split
      · exact h
      · rename_i r rs e
        refine queues_setLink h l ⟨(queues_link h l).1, ?_⟩
        have := (queues_link h l).2
        rw [e, List.length_cons] at this
        exact (Nat.le_succ _).trans this
    | silenceExpiry l =>
      exact queues_quiet (queues_setLink h l (x := { s.link l with silent := true, silence := none }) (queues_link h l))
        (by simp [eventRule, fallSilent])
    | unknownRequest =>
      simp only [eventRule, unknownRequest]
      split
      · split
        · exact h
        · rename_i l f hg _
          obtain ⟨taken, room⟩ := takeHead_bounded h hg
          exact buildReply_bounded taken room f _
      · exact h
    | _ => first | exact absurd rfl he | cases hq

theorem exec_queueLaw {c : Instr} {s t : State} (h : exec c s = .next t) (hs : QueueLaw s) : QueueLaw t := by
  rw [queueLaw_iff] at hs ⊢
  have cold : QueuesBounded State.reset.links := by simp [QueuesBounded, LinkState.Bounded, State.reset]
  rcases exec_cases h with
    rfl | ⟨-, rfl⟩ | ⟨-, rfl⟩ | ⟨a, b, -, rfl⟩ | ⟨kind, acc, l, f, hr, ⟨-, hg, -⟩, rfl⟩ | ⟨due, -, -, he, rfl⟩
  · exact hs
  · exact cold
  · exact cold
  · exact hs
  · obtain ⟨taken, room⟩ := takeHead_bounded hs hg
    have row : requestRow c ≠ none := by rw [hr]; nofun
    have quiet := rowRule_quiet c l f.payload (takeHead l s) row
    rcases serve_cases acc l f (rowRule c) s with ⟨a, e⟩ | ⟨a, -, e⟩ <;> rw [e]
    · exact buildReply_bounded taken room f a
    · refine buildReply_bounded (queues_quiet taken quiet) ?_ f a
      have same : ((rowRule c l f.payload (takeHead l s)).1.link l).replies = ((takeHead l s).link l).replies := by
        cases l
        · exact quiet.cabReplies
        · exact quiet.plantReplies
        · exact quiet.recordReplies
      rw [same]; exact room
  · exact eventRule_bounded (s := s.reach due) c hs (mt (eventTime_reach s due c).mp (by rw [he]; nofun))

/-- Settles O12: each bound is kept by every command. -/
theorem stepKeepsOutputsAndBounds : Obligations.StepKeepsOutputsAndBounds := by
  intro s t h
  exact ⟨fun hs => step_keeps h hs (fun _ _ _ h => h) (fun _ _ h => h) fun _ _ _ => exec_plateLaw,
    fun hs => step_keeps h hs (fun _ _ _ h => h) (fun _ _ h => h) fun _ _ _ => exec_backlogLaw,
    fun hs => step_keeps h hs (fun _ _ _ h => h) (fun _ _ h => h) fun _ _ _ => exec_counterLaw,
    fun hs => step_keeps h hs (fun _ _ _ h => h) (fun _ _ h => h) fun _ _ _ => exec_queueLaw,
    fun hs => step_keeps h hs (fun _ _ _ h => h) (fun _ _ h => h) fun _ _ _ => exec_releaseLaw⟩

end Sys2Proof.Machine
end

section
/-! O11: the demand groups in their ranges (R153), the differential (R90) and the drives (R104). -/

namespace Sys2Proof.Machine

open Sys2Proof.Safety

/-! ## Group writes -/

/-- The entries that a group write lets through name fields of the group. -/
theorem groupEntries_fields {n : Nat} {ok : Entry → Bool} {p : List Byte} {es : List Entry}
    (h : groupEntries n ok p = .ok es) : ∀ e ∈ es, 1 ≤ e.1 ∧ e.1 ≤ n := by
  unfold groupEntries at h
  dsimp only at h
  split at h
  · cases h
  · split at h
    · cases h
    · split at h
      · cases h
      · rename_i fields
        split at h
        · cases h
          intro e he
          simp only [not_or, Bool.not_eq_true, List.any_eq_false, Bool.or_eq_true, decide_eq_true_eq] at fields
          have := fields.1 e he
          omega
        · cases h

theorem writeGroup_keeps_ok {P : State → Prop} {n : Nat} {ok : Entry → Bool} {range : Nat → Int × Int}
    {accept : List Entry → State → State} {p : List Byte} {s : State} (h : P s)
    (ha : ∀ es : List Entry, (∀ e ∈ es, 1 ≤ e.1 ∧ e.1 ≤ n) → P (accept (es.map (clampEntry range)) s)) :
    P (writeGroup n ok range accept p s).1 := by
  unfold writeGroup
  split
  · exact h
  · rename_i es e; exact ha es (groupEntries_fields e)

/-- Clamped entries leave a group in its ranges. -/
theorem writeAll_inRanges {G : Type} {write : G → Nat → Int → G} {values : G → List Int} {range wide : Nat → Int × Int}
    {fields : Nat} (hr : ∀ n, (range n).1 ≤ (range n).2) (hs : ∀ n, (wide n).1 ≤ (range n).1 ∧ (range n).2 ≤ (wide n).2)
    (hw : ∀ g n v, 1 ≤ n → n ≤ fields → (range n).1 ≤ v → v ≤ (range n).2 → values (write g n v) = (values g).set (n - 1) v)
    {es : List Entry} (he : ∀ e ∈ es, 1 ≤ e.1 ∧ e.1 ≤ fields) {g : G} (h : InRanges wide (values g)) :
    InRanges wide (values (writeAll write g (es.map (clampEntry range)))) := by
  unfold writeAll
  induction es generalizing g with
  | nil => exact h
  | cons e es ih =>
    obtain ⟨low, high⟩ := he e (by simp)
    have clamped := clamp_mem (hr e.1) e.2
    refine ih (fun x hx => he x (List.mem_cons_of_mem _ hx)) fun i v hv => ?_
    have written := hw g _ _ low high clamped.1 clamped.2
    change (values (write g e.1 (clamp (range e.1).1 (range e.1).2 e.2)))[i]? = some v at hv
    rw [written, List.getElem?_set] at hv
    split at hv
    · split at hv
      · have same : i + 1 = e.1 := by omega
        cases hv
        rw [same]
        exact ⟨(hs e.1).1.trans clamped.1, clamped.2.trans (hs e.1).2⟩
      · cases hv
    · exact h i v hv

theorem wheelRange_ordered {dMax : Int} (h : 0 ≤ dMax) (n : Nat) : (wheelRange dMax n).1 ≤ (wheelRange dMax n).2 := by
  unfold wheelRange; split <;> (dsimp only; omega)

theorem wheelRange_within {dMax : Int} (h : dMax ≤ 100) (n : Nat) :
    (wheelRange 100 n).1 ≤ (wheelRange dMax n).1 ∧ (wheelRange dMax n).2 ≤ (wheelRange 100 n).2 := by
  unfold wheelRange; split <;> (dsimp only; omega)

theorem feedRange_ordered (n : Nat) : (feedRange n).1 ≤ (feedRange n).2 := by unfold feedRange; split <;> decide

theorem tuningRange_ordered (n : Nat) : (tuningRange n).1 ≤ (tuningRange n).2 := by unfold tuningRange; split <;> decide

theorem pumpRange_ordered (n : Nat) : (pumpRange n).1 ≤ (pumpRange n).2 := by unfold pumpRange; split <;> decide

/-- A WHEEL field in its range sets its place: the codes then are 0 or 1. -/
theorem wheel_write_inRange (dMax : Int) (g : WheelGroup) (n : Nat) (v : Int) (low : 1 ≤ n) (high : n ≤ 10)
    (hl : (wheelRange dMax n).1 ≤ v) (hh : v ≤ (wheelRange dMax n).2) : (g.write n v).values = g.values.set (n - 1) v := by
  refine wheel_write_values g low high fun code => ?_
  rcases code with rfl | rfl
  all_goals
    simp only [wheelRange] at hl hh
    omega

/-! ## The demand groups and the differential -/

/-- The demands' law, of the groups. -/
def GroupsIn (d : DemandTable) : Prop :=
  InRanges (wheelRange 100) d.wheel.values ∧ InRanges feedRange d.feed.values
    ∧ InRanges tuningRange d.tuning.values ∧ InRanges pumpRange d.pump.values

theorem steered_iff (s : State) : Steered s ↔ GroupsIn s.demand ∧ |s.align.diff| ≤ s.demand.tuning.dMax := .rfl

theorem GroupsIn.dMax {d : DemandTable} (h : GroupsIn d) : 0 ≤ d.tuning.dMax ∧ d.tuning.dMax ≤ 100 := by
  obtain ⟨-, -, tuning, -⟩ := h
  exact tuning 4 _ rfl

theorem GroupsIn.rStep {d : DemandTable} (h : GroupsIn d) : 0 ≤ d.tuning.rStep := by
  obtain ⟨-, -, tuning, -⟩ := h
  have low := (tuning 6 _ rfl).1
  simp only [tuningRange] at low
  omega

theorem steered_congr {s t : State} (h : Steered s) (demand : t.demand = s.demand) (diff : t.align.diff = s.align.diff) :
    Steered t := by
  rw [steered_iff] at h ⊢
  rw [demand, diff]
  exact h

/-- A change of the Demand Table that keeps the groups, and the differential kept. -/
theorem steered_groups {s t : State} (h : Steered s) (wheel : t.demand.wheel = s.demand.wheel)
    (feed : t.demand.feed = s.demand.feed) (tuning : t.demand.tuning = s.demand.tuning)
    (pump : t.demand.pump = s.demand.pump) (diff : t.align.diff = s.align.diff) : Steered t := by
  rw [steered_iff] at h ⊢
  unfold GroupsIn
  rw [wheel, feed, tuning, pump, diff]
  exact h

theorem clampDiff_abs {d : DemandTable} (h : GroupsIn d) (x : Int) : |clampDiff d.tuning x| ≤ d.tuning.dMax :=
  abs_le.mpr (clamp_mem (by have := h.dMax.1; omega) x)

theorem evaluateAlign_diff {s : State} (h : Steered s) (r : ScanRecord) :
    |(evaluateAlign r s).diff| ≤ s.demand.tuning.dMax := by
  obtain ⟨groups, diff⟩ := (steered_iff s).mp h
  have stepped (x : Int) : |stepToward s.align.diff (clampDiff s.demand.tuning x) s.demand.tuning.rStep|
      ≤ s.demand.tuning.dMax := by
    obtain ⟨goalLow, goalHigh⟩ := abs_le.mp (clampDiff_abs groups x)
    obtain ⟨low, high⟩ := abs_le.mp diff
    exact abs_le.mpr (stepToward_mem low high goalLow goalHigh groups.rStep)
  unfold evaluateAlign
  split
  · exact groups.dMax.1
  · split
    · exact stepped _
    · split
      · exact diff
      · split
        · exact diff
        · split
          · exact diff
          · split
            · exact diff
            · exact stepped _

theorem alignScan_steered {s : State} (h : Steered s) (r : ScanRecord) : Steered (alignScan r s) := by
  unfold alignScan
  split
  · exact (steered_iff _).mpr ⟨h.1, evaluateAlign_diff h r⟩
  · exact h

theorem steered_touches {ps : List Part} {s t : State} (h : Steered s) (ht : Touches ps s t) (hd : Part.demand ∉ ps)
    (ha : Part.align ∉ ps) : Steered t := by
  have align : t.align = s.align := ht .align ha
  exact steered_congr h (ht .demand hd) (by rw [align])

theorem consumers_steered {s : State} (h : Steered s) (r : ScanRecord) : Steered (consumers r s) := by
  have watched : Steered (returnScan r (driveScan r (stationScan r s.drawn))) :=
    steered_touches (steered_touches (steered_touches h (t := stationScan r s.drawn) (stationScan_touches r _)
      (by decide) (by decide)) (driveScan_touches r _) (by decide) (by decide)) (returnScan_touches r _) (by decide)
      (by decide)
  have judged {u : State} (h : Steered u) : Steered (plateScan r u) :=
    steered_touches h (plateScan_touches r u) (by decide) (by decide)
  unfold consumers
  dsimp only
  split
  · exact judged (alignScan_steered watched r)
  · exact alignScan_steered (judged watched) r

theorem conversionDone_steered {s : State} (h : Steered s) (raw : Int) : Steered (conversionDone raw s) := by
  have ended {u : State} (h : Steered u) : Steered (scanCompletion u) := by
    unfold scanCompletion
    refine steered_touches (s := if u.acq.state = .settling then u else publishScan u) ?_ (afterScan_touches _)
      (by decide) (by decide)
    split
    · exact h
    · unfold publishScan
      dsimp only
      refine consumers_steered ?_ _
      exact steered_touches (steered_touches h (judgeScan_touches _ u) (by decide) (by decide)) (setAcq_touches _ _)
        (by decide) (by decide)
  cases hc : s.acq.activeList[s.acq.results.length]? with
  | none => rw [conversionDone_of_end hc]; exact ended h
  | some c =>
    have gained := steered_touches h (converted_touches raw c s) (by decide) (by decide)
    rw [conversionDone_of_entry hc]
    split
    · exact gained
    · exact ended gained

theorem renewWheel_steered {s : State} (h : Steered s) : Steered (renewWheel s) := by
  apply steered_groups h <;> simp [renewWheel, setExpired]

theorem setWheel_steered {s : State} (h : Steered s) {es : List Entry} (he : ∀ e ∈ es, 1 ≤ e.1 ∧ e.1 ≤ 10) :
    Steered (acceptWheel (es.map (clampEntry (wheelRange s.demand.tuning.dMax))) s) := by
  obtain ⟨⟨wheel, others⟩, diff⟩ := (steered_iff s).mp h
  have dMax := GroupsIn.dMax h.1
  refine renewWheel_steered ((steered_iff _).mpr ⟨⟨?_, others⟩, diff⟩)
  exact writeAll_inRanges (wheelRange_ordered dMax.1) (wheelRange_within dMax.2) (wheel_write_inRange _) he wheel

theorem setTuning_steered {s : State} (h : Steered s) {es : List Entry} (he : ∀ e ∈ es, 1 ≤ e.1 ∧ e.1 ≤ 28) :
    Steered (acceptTuning (es.map (clampEntry tuningRange)) s) := by
  obtain ⟨⟨wheel, feed, tuning, pump⟩, -⟩ := (steered_iff s).mp h
  have written : GroupsIn { s.demand with tuning := writeAll TuningGroup.write s.demand.tuning (es.map (clampEntry tuningRange)) } :=
    ⟨wheel, feed, writeAll_inRanges tuningRange_ordered (fun _ => ⟨le_rfl, le_rfl⟩)
      (fun g _ v low high _ _ => tuning_write_values g low high v) he tuning, pump⟩
  exact (steered_iff _).mpr ⟨written, clampDiff_abs written _⟩

theorem rowRule_steered (c : Instr) (l : Link) (p : List Byte) {s : State} (h : Steered s) (hr : requestRow c ≠ none) :
    Steered (rowRule c l p s).1 := by
  obtain ⟨⟨wheel, feed, tuning, pump⟩, diff⟩ := (steered_iff s).mp h
  by_cases untouched : Part.demand ∉ touched c ∧ Part.align ∉ touched c
  · exact steered_touches h (rowRule_touches c l p s) untouched.1 untouched.2
  · cases c with
    | setWheel => exact writeGroup_keeps_ok h fun es he => setWheel_steered h he
    | keepWheel => exact emptyPayload_keeps h (renewWheel_steered h)
    | setFeed =>
      refine writeGroup_keeps_ok h fun es he => (steered_iff _).mpr ⟨⟨wheel, ?_, tuning, pump⟩, diff⟩
      exact writeAll_inRanges feedRange_ordered (fun _ => ⟨le_rfl, le_rfl⟩)
        (fun g _ v low high _ _ => feed_write_values g low high v) he feed
    | setTuning => exact writeGroup_keeps_ok h fun es he => setTuning_steered h he
    | setPump =>
      refine writeGroup_keeps_ok h fun es he => (steered_iff _).mpr ⟨⟨wheel, feed, tuning, ?_⟩, diff⟩
      exact writeAll_inRanges pumpRange_ordered (fun _ => ⟨le_rfl, le_rfl⟩)
        (fun g _ v low high _ _ => pump_write_values g low high v) he pump
    | takePump =>
      refine emptyPayload_keeps h ?_
      unfold takePumpBody
      repeat' split
      all_goals exact steered_groups h rfl rfl rfl rfl rfl
    | reclaimPump =>
      refine emptyPayload_keeps h ?_
      unfold reclaimPumpBody
      repeat' split
      all_goals exact steered_groups h rfl rfl rfl rfl rfl
    | releasePump =>
      refine emptyPayload_keeps h ?_
      unfold releasePumpBody
      split <;> exact steered_groups h rfl rfl rfl rfl rfl
    | _ => first | exact absurd rfl hr | exact absurd (by decide) untouched

theorem eventRule_steered (c : Instr) {s : State} (h : Steered s) (he : eventTime s c ≠ none) :
    Steered (eventRule c s) := by
  obtain ⟨⟨-, feed, tuning, pump⟩, -⟩ := (steered_iff s).mp h
  by_cases untouched : Part.demand ∉ touched c ∧ Part.align ∉ touched c
  · exact steered_touches h (eventRule_touches c s) untouched.1 untouched.2
  · cases c with
    | warm =>
      have rest : GroupsIn (warmDemand s.demand) :=
        ⟨reset_demandLaw.1, feed, tuning, pump⟩
      refine (steered_iff _).mpr ⟨by simpa [eventRule, warmState] using rest, ?_⟩
      simpa [eventRule, warmState, warmDemand] using (GroupsIn.dMax h.1).1
    | wheelDemandExpiry => apply steered_groups h <;> simp [eventRule, expireWheel, setExpired]
    | conversionCompletion raw => exact conversionDone_steered h raw
    | _ => first | exact absurd rfl he | exact absurd (by simp [touched]) untouched

theorem reset_steered : Steered State.reset :=
  (steered_iff _).mpr ⟨reset_demandLaw, by decide⟩

theorem exec_steered {c : Instr} {s t : State} (h : exec c s = .next t) (hs : Steered s) : Steered t :=
  exec_keeps h hs (fun _ _ h => h) (fun _ _ h => h) (fun _ => reset_steered) (fun _ h => h) (fun _ _ h => h)
    (fun l p _ hr h => rowRule_steered c l p h hr) fun _ _ he h => eventRule_steered c h he

theorem exec_driveLaw {c : Instr} {s t : State} (h : exec c s = .next t) (hs : Steered s) (hd : DriveLaw s) :
    DriveLaw t := by
  have cold : DriveLaw State.reset := by unfold DriveLaw MotorBounds; decide
  by_cases h1 : c = .cold
  · subst h1; cases h; exact cold
  by_cases h2 : c = .resetLineAssert
  · subst h2; cases h; exact cold
  obtain ⟨a, b, p⟩ := hd
  rcases exec_turned h h1 h2 with turned | ⟨-, zeroed⟩
  · exact ⟨turned.a.bounds hs a, turned.b.bounds hs b, turned.p.bounds hs p⟩
  · unfold DriveLaw
    rw [zeroed]
    exact ⟨a, b, p⟩

/-- Settles O11: a group write stores clamped values, the differential steps within Dmax, and a drive turns within its
bounds. -/
theorem stepKeepsDemandAndDriveLaws : Obligations.StepKeepsDemandAndDriveLaws := by
  intro s t demand differential drives h
  have kept := step_keeps (P := fun s => Steered s ∧ DriveLaw s) h ⟨⟨demand, differential⟩, drives⟩
    (fun _ _ _ h => h) (fun _ _ h => h) fun _ _ _ e hs => ⟨exec_steered e hs.1, exec_driveLaw e hs.1 hs.2⟩
  exact ⟨kept.1.1, kept.1.2, kept.2⟩

end Sys2Proof.Machine
end

section
/-! O16: the geometry record, the panel state, the owner and a HELD slot change at the named commands only. -/

namespace Sys2Proof.Machine

open Sys2Proof.Safety

/-! ## What may change -/

/-- What a command may do to a HELD slot (R175, R179, R180). -/
def SlotsNamed (c : Instr) (s t : State) : Prop := ∀ i, (s.slot i).state = .held →
  (t.slot i).state = .held
  ∨ (c = .readArchive ∧ (t.slot i).state = .released
      ∧ ∀ p, p < ((s.slot i).pageCount.getD 0) → (t.slot i).readMarks.getLsbD p = true)
  ∨ ((t.slot i).state = .erasing ∧ ∃ rest due, t.archive.engine = .wipe i rest due)

/-- What a command that is no reset may do to the record in force, the panel state and the owner. -/
structure Named (c : Instr) (s t : State) : Prop where
  geometry : t.geometry ≠ s.geometry → (c = .openPanel ∧ t.panel = .active) ∨
    (c = .extendDepth ∧ s.panel = .active ∧ t.geometry = { s.geometry with design := t.geometry.design }
      ∧ s.geometry.design < t.geometry.design)
  panel : t.panel ≠ s.panel →
    (c = .openPanel ∧ (s.panel = .idle ∨ s.panel = .closed) ∧ t.panel = .active)
    ∨ (c = .closePanel ∧ s.panel = .active ∧ t.panel = .closing)
    ∨ (c = .abandonPanel ∧ (s.panel = .active ∨ s.panel = .closed) ∧ t.panel = .idle)
    ∨ ((∃ v, c = .pageProgramCompletion v) ∧ s.panel = .closing ∧ t.panel = .closed)
  owner : t.demand.owner ≠ s.demand.owner →
    ((c = .takePump ∧ t.demand.owner = .cab) ∨ (c = .reclaimPump ∧ t.demand.owner = .plant))
      ∧ t.demand.releasedPlant = false ∧ t.demand.releasedCab = false ∧ t.demand.pump = s.demand.pump
  slots : SlotsNamed c s t

theorem slotsNamed_of_held {c : Instr} {s t : State} (h : ∀ i, (s.slot i).state = .held → (t.slot i).state = .held) :
    SlotsNamed c s t := fun i hi => .inl (h i hi)

theorem slotsNamed_kept {c : Instr} {s t : State} (h : t.archive = s.archive) : SlotsNamed c s t :=
  slotsNamed_of_held fun i hi => by unfold State.slot at *; rw [h]; exact hi

theorem slotsNamed_congr {c : Instr} {s t u v : State} (h : SlotsNamed c u v) (hs : u.archive = s.archive)
    (ht : t.archive = v.archive) : SlotsNamed c s t := fun i hi => by
  have before : u.slot i = s.slot i := by unfold State.slot; rw [hs]
  have after : t.slot i = v.slot i := by unfold State.slot; rw [ht]
  rw [after, ht, ← before]
  exact h i (before.symm ▸ hi)

/-- Only a slot may change. -/
theorem named_slots {c : Instr} {s t : State} (geometry : t.geometry = s.geometry) (panel : t.panel = s.panel)
    (owner : t.demand.owner = s.demand.owner) (slots : SlotsNamed c s t) : Named c s t :=
  ⟨fun g => absurd geometry g, fun g => absurd panel g, fun g => absurd owner g, slots⟩

theorem named_refl (c : Instr) (s : State) : Named c s s := named_slots rfl rfl rfl (slotsNamed_kept rfl)

theorem named_congr {c : Instr} {s t u v : State} (h : Named c u v) (hs : Touches [.depth] s u)
    (ht : Touches [.depth] v t) : Named c s t := by
  obtain ⟨geometry, panel, owner, slots⟩ := h
  have g1 : u.geometry = s.geometry := hs .geometry (by decide)
  have g2 : t.geometry = v.geometry := ht .geometry (by decide)
  have p1 : u.panel = s.panel := hs .panel (by decide)
  have p2 : t.panel = v.panel := ht .panel (by decide)
  have d1 : u.demand = s.demand := hs .demand (by decide)
  have d2 : t.demand = v.demand := ht .demand (by decide)
  rw [g1] at geometry
  rw [p1] at geometry panel
  rw [d1] at owner
  refine ⟨?_, ?_, ?_, slotsNamed_congr slots (hs .archive (by decide)) (ht .archive (by decide))⟩
  · rw [g2, p2]; exact geometry
  · rw [p2]; exact panel
  · rw [d2]; exact owner

/-! ## The slots -/

theorem setSlot_other (s : State) {i j : Nat} (h : i ≠ j) (x : Slot) : (s.setSlot j x).slot i = s.slot i := by
  simp [State.setSlot, State.slot, List.getD_eq_getElem?_getD, List.getElem?_set_ne h.symm]

theorem held_lt {s : State} {i : Nat} (h : (s.slot i).state = .held) : i < s.archive.slots.length := by
  by_contra out
  unfold State.slot at h
  rw [List.getD_eq_default _ _ (not_lt.mp out)] at h
  cases h

/-- A slot that is not HELD changes. -/
theorem held_setSlot {s : State} {j : Nat} (h : (s.slot j).state ≠ .held) (x : Slot) :
    ∀ i, (s.slot i).state = .held → ((s.setSlot j x).slot i).state = .held := fun i hi => by
  have other : i ≠ j := fun e => h (e ▸ hi)
  rw [setSlot_other s other]
  exact hi

theorem slotsNamed_setSlot {c : Instr} {s t : State} {j : Nat} (h : (s.slot j).state ≠ .held) (x : Slot)
    (ht : t.archive.slots = (s.setSlot j x).archive.slots) : SlotsNamed c s t :=
  slotsNamed_of_held fun i hi => by
    have same : t.slot i = (s.setSlot j x).slot i := by unfold State.slot; rw [ht]
    rw [same]; exact held_setSlot h x i hi

/-- A slot that an operation is on is not HELD. -/
theorem not_held_of_writes {s : State} (h : ArchiveLaw s) {j : Nat} (hw : s.archive.engine.writes = some j) :
    (s.slot j).state ≠ .held := fun held => by
  obtain ⟨len, fits, -⟩ := (archiveLaw_iff s).mp h
  cases held.symm.trans ((fits j (len ▸ held_lt held)).1.mpr hw)

theorem not_held_of_erases {s : State} (h : ArchiveLaw s) {j : Nat} (he : s.archive.engine.erases = some j) :
    (s.slot j).state ≠ .held := fun held => by
  obtain ⟨len, fits, -⟩ := (archiveLaw_iff s).mp h
  cases held.symm.trans ((fits j (len ▸ held_lt held)).2.mpr he)

theorem endWalkStage_slots (s : State) : (endWalkStage s).archive.slots = s.archive.slots := by
  unfold endWalkStage
  split
  · have archive (ks : List Nat) : (settleEach ks s).archive = s.archive := settleEach_touches ks s .archive (by decide)
    simp [startWrite, State.setEngine, archive]
  · rfl

theorem readArchiveBody_slots (l : Link) (p : List Byte) (s : State) :
    SlotsNamed .readArchive s (readArchiveBody l p s).1 := by
  have read (j : Nat) (pages : List Nat) :
      SlotsNamed .readArchive s (s.setSlot j (readSlot (s.slot j) ((s.slot j).pageCount.getD 0) pages)) := fun i hi => by
    by_cases e : i = j
    · subst e
      rw [setSlot_slot s (held_lt hi), if_pos rfl]
      rcases readSlot_state (s.slot i) ((s.slot i).pageCount.getD 0) pages with kept | ⟨released, -, all⟩
      · exact .inl (kept.trans hi)
      · exact .inr (.inl ⟨rfl, released, fun p hp => List.all_eq_true.mp all p (List.mem_range.mpr hp)⟩)
    · rw [setSlot_other s e]; exact .inl hi
  unfold readArchiveBody
  dsimp only
  repeat' split
  all_goals first | exact slotsNamed_kept rfl | exact read _ _

/-- The slot a wipe turns to next is ERASING with the wipe on it; with none left the wipe ends. -/
theorem wipeNext_slots {c : Instr} {s u : State} {rest : List Nat}
    (h : ∀ i, (s.slot i).state = .held → (u.slot i).state = .held) : SlotsNamed c s (wipeNext rest u) := by
  cases rest with
  | nil => exact slotsNamed_of_held h
  | cons j js =>
    intro i hi
    have before := h i hi
    by_cases e : i = j
    · subst e
      have erased : (wipeNext (i :: js) u).slot i = { u.slot i with state := .erasing } := by
        change (u.setSlot i { u.slot i with state := .erasing }).slot i = _
        rw [setSlot_slot u (held_lt before), if_pos rfl]
      exact .inr (.inr ⟨by rw [erased], js, u.inMs 400, rfl⟩)
    · have kept : (wipeNext (j :: js) u).slot i = u.slot i := setSlot_other u e _
      exact .inl (by rw [kept]; exact before)

theorem eraseEnd_held {s : State} {j : Nat} (h : (s.slot j).state ≠ .held) (blank : Bool) :
    ∀ i, (s.slot i).state = .held → ((eraseEnd j blank s).slot i).state = .held := by
  unfold eraseEnd
  split <;> exact held_setSlot h _

theorem eraseDone_slots {c : Instr} {s : State} (h : ArchiveLaw s) (blank : Bool) :
    SlotsNamed c s (eraseDone blank s) := by
  unfold eraseDone
  split
  · rename_i j due e
    exact slotsNamed_of_held (eraseEnd_held (not_held_of_erases h (by rw [e]; rfl)) blank)
  · rename_i j rest due e
    exact wipeNext_slots (eraseEnd_held (not_held_of_erases h (by rw [e]; rfl)) blank)
  all_goals exact slotsNamed_kept rfl

/-! ## The panel's commands -/

theorem setPanel_kept (p : PanelState) (s : State) : (setPanel p s).panel = p ∧ (setPanel p s).geometry = s.geometry
    ∧ (setPanel p s).demand = s.demand ∧ (setPanel p s).archive = s.archive := by simp [setPanel]

theorem openPanel_named (l : Link) (p : List Byte) (s : State) : Named .openPanel s (openPanelBody l p s).1 := by
  unfold openPanelBody
  split
  · exact named_refl _ s
  · rename_i shut
    dsimp only
    split
    · exact named_refl _ s
    · have before : s.panel = .idle ∨ s.panel = .closed := by
        cases hp : s.panel <;> simp_all
      have touched := openGovernor_touches ((geometryOf p).encoderStep != s.geometry.encoderStep) { s with
        panel := .active, geometry := geometryOf p
        depth := openDepth (geometryOf p) ((geometryOf p).encoderStep != s.geometry.encoderStep) s.depth
        table := s.table.emptied, drives := zeroTallies s.drives, ret := { s.ret with backlog := 0 } }
      have panel : (openPanel (geometryOf p) s).panel = .active := touched .panel (by decide)
      have demand : (openPanel (geometryOf p) s).demand = s.demand := touched .demand (by decide)
      exact ⟨fun _ => .inl ⟨rfl, panel⟩, fun _ => .inl ⟨rfl, before, panel⟩, fun g => absurd (by rw [demand]) g,
        slotsNamed_kept (touched .archive (by decide))⟩

theorem closePanel_named (l : Link) {s : State} : Named .closePanel s (closePanelBody l s).1 := by
  unfold closePanelBody
  split
  · exact named_refl _ s
  · rename_i active
    split
    · exact named_refl _ s
    · split
      · exact named_refl _ s
      · rename_i i hi
        dsimp only
        generalize hu : (s.setSlot i (reservedSlot s.geometry)).setEngine (.reserved i) = u
        obtain ⟨panel, geometry, demand, archive⟩ := setPanel_kept .closing u
        have ended := endWalkStage_touches (setPanel .closing u)
        have shut : (endWalkStage (setPanel .closing u)).panel = .closing := Eq.trans (ended .panel (by decide)) panel
        have record : (endWalkStage (setPanel .closing u)).geometry = s.geometry :=
          Eq.trans (ended .geometry (by decide)) (geometry.trans (by rw [← hu]; rfl))
        have owner : (endWalkStage (setPanel .closing u)).demand = s.demand :=
          Eq.trans (ended .demand (by decide)) (demand.trans (by rw [← hu]; rfl))
        refine ⟨fun g => absurd record g, fun _ => .inr (.inl ⟨rfl, not_not.mp active, shut⟩),
          fun g => absurd (by rw [owner]) g, ?_⟩
        have empty : (s.slot i).state ≠ .held := by rw [(emptySlot_spec hi).2]; nofun
        exact slotsNamed_setSlot empty (reservedSlot s.geometry) (by
          rw [endWalkStage_slots, archive, ← hu]; rfl)

theorem abandonPanel_named (l : Link) (s : State) : Named .abandonPanel s (abandonPanelBody l s).1 := by
  obtain ⟨panel, geometry, demand, archive⟩ := setPanel_kept .idle { s with table := s.table.emptied }
  have left (h : s.panel = .active ∨ s.panel = .closed) :
      Named .abandonPanel s (setPanel .idle { s with table := s.table.emptied }) :=
    ⟨fun g => absurd geometry g, fun _ => .inr (.inr (.inl ⟨rfl, h, panel⟩)), fun g => absurd (by rw [demand]) g,
      slotsNamed_kept archive⟩
  unfold abandonPanelBody
  split
  · exact named_refl _ s
  · exact named_refl _ s
  · rename_i e; exact left (.inl e)
  · rename_i e; exact left (.inr e)

theorem extendDepth_named (l : Link) (p : List Byte) (s : State) : Named .extendDepth s (extendDepthBody l p s).1 := by
  unfold extendDepthBody
  dsimp only
  split
  · exact named_refl _ s
  · rename_i active
    split
    · exact named_refl _ s
    · rename_i deeper
      obtain ⟨above, -⟩ := not_or.mp deeper
      generalize hg : ({ s.geometry with design := unsignedAt p 0 4 } : Geometry) = g at above ⊢
      have extended : (extendDesign g s).geometry = g ∧ (extendDesign g s).panel = s.panel
          ∧ (extendDesign g s).demand = s.demand ∧ (extendDesign g s).archive = s.archive := by
        unfold extendDesign
        dsimp only
        split <;> simp [setFinal]
      obtain ⟨geometry, panel, demand, archive⟩ := extended
      refine ⟨fun _ => .inr ⟨rfl, not_not.mp active, ?_, ?_⟩, fun e => absurd panel e, fun e => absurd (by rw [demand]) e,
        slotsNamed_kept archive⟩
      · rw [geometry, ← hg]
      · rw [geometry, ← hg]; exact not_le.mp above

theorem pageDone_named {s : State} (h : ArchiveLaw s) (v : Bool) :
    Named (.pageProgramCompletion v) s (pageDone v s) := by
  unfold pageDone
  split
  · rename_i i page image due e
    have writes : s.archive.engine.writes = some i := by rw [e]; rfl
    have free := not_held_of_writes h writes
    have closing : s.panel = .closing := ((archiveLaw_iff s).mp h).2.2.1.mpr (by rw [writes]; rfl)
    have closed {u : State} (x : Slot) (geometry : u.geometry = s.geometry) (demand : u.demand = s.demand)
        (slots : u.archive.slots = (s.setSlot i x).archive.slots) :
        Named (.pageProgramCompletion v) s (closeWriteEnd u) := by
      have same : (closeWriteEnd u).panel = .closed ∧ (closeWriteEnd u).geometry = u.geometry
          ∧ (closeWriteEnd u).demand = u.demand ∧ (closeWriteEnd u).archive.slots = u.archive.slots := by
        simp [closeWriteEnd, setPanel, State.setEngine]
      obtain ⟨panel, record, owner, archive⟩ := same
      exact ⟨fun g => absurd (record.trans geometry) g, fun _ => .inr (.inr (.inr ⟨⟨v, rfl⟩, closing, panel⟩)),
        fun g => absurd (by rw [owner, demand]) g, slotsNamed_setSlot free x (archive.trans slots)⟩
    dsimp only
    split
    · split
      · exact named_slots rfl rfl rfl (slotsNamed_setSlot free
          { s.slot i with pages := (s.slot i).pages ++ [image.getD page []] } rfl)
      · exact closed { s.slot i with pages := (s.slot i).pages ++ [image.getD page []], state := .held } rfl rfl rfl
    · exact closed { s.slot i with state := .faulty } rfl rfl rfl
  all_goals exact named_refl _ s

/-! ## Every command -/

/-- A change of the Demand Table that keeps the owner. -/
theorem rowRule_owner (c : Instr) (l : Link) (p : List Byte) (s : State) (hr : requestRow c ≠ none)
    (h1 : c ≠ .takePump) (h2 : c ≠ .reclaimPump) : (rowRule c l p s).1.demand.owner = s.demand.owner := by
  by_cases untouched : Part.demand ∉ touched c
  · have demand : (rowRule c l p s).1.demand = s.demand := rowRule_touches c l p s .demand untouched
    rw [demand]
  · cases c with
    | setWheel =>
      refine writeGroup_keeps (P := fun t => t.demand.owner = s.demand.owner) rfl fun es => ?_
      simp [acceptWheel, renewWheel, setExpired, alignMode]
    | keepWheel =>
      refine emptyPayload_keeps (P := fun t => t.demand.owner = s.demand.owner) rfl ?_
      simp [keepWheelBody, renewWheel, setExpired]
    | setFeed => exact writeGroup_keeps (P := fun t => t.demand.owner = s.demand.owner) rfl fun es => rfl
    | setTuning => exact writeGroup_keeps (P := fun t => t.demand.owner = s.demand.owner) rfl fun es => rfl
    | setPump => exact writeGroup_keeps (P := fun t => t.demand.owner = s.demand.owner) rfl fun es => rfl
    | releasePump =>
      refine emptyPayload_keeps (P := fun t => t.demand.owner = s.demand.owner) rfl ?_
      unfold releasePumpBody
      split <;> rfl
    | _ => first | exact absurd rfl hr | exact absurd rfl h1 | exact absurd rfl h2 | exact absurd (by decide) untouched

theorem transferPump_named {c : Instr} {o : Owner} (s : State) (h : (c = .takePump ∧ o = .cab) ∨ (c = .reclaimPump ∧ o = .plant)) :
    Named c s (transferPump o s) :=
  ⟨fun g => absurd rfl g, fun g => absurd rfl g, fun _ => ⟨h, rfl, rfl, rfl⟩, slotsNamed_kept rfl⟩

theorem rowRule_named (c : Instr) (l : Link) (p : List Byte) {s : State} (hr : requestRow c ≠ none) :
    Named c s (rowRule c l p s).1 := by
  have only : Named c s s := named_refl c s
  by_cases shared : c = .openPanel ∨ c = .closePanel ∨ c = .abandonPanel ∨ c = .extendDepth ∨ c = .takePump
      ∨ c = .reclaimPump
  · rcases shared with rfl | rfl | rfl | rfl | rfl | rfl
    · exact payloadOf_keeps only (openPanel_named l p s)
    · exact emptyPayload_keeps only (closePanel_named l)
    · exact emptyPayload_keeps only (abandonPanel_named l s)
    · exact payloadOf_keeps only (extendDepth_named l p s)
    · refine emptyPayload_keeps only ?_
      unfold takePumpBody
      split
      · exact named_slots rfl rfl rfl (slotsNamed_kept rfl)
      · split
        · exact transferPump_named s (.inl ⟨rfl, rfl⟩)
        · exact only
    · refine emptyPayload_keeps only ?_
      unfold reclaimPumpBody
      split
      · exact named_slots rfl rfl rfl (slotsNamed_kept rfl)
      · split
        · exact transferPump_named s (.inr ⟨rfl, rfl⟩)
        · exact only
  · simp only [not_or] at shared
    obtain ⟨h1, h2, h3, h4, h5, h6⟩ := shared
    have panel : Part.panel ∉ touched c := by
      cases c with
      | openPanel | closePanel | abandonPanel => contradiction
      | pageProgramCompletion v => exact absurd rfl hr
      | _ => simp [touched]
    have geometry : Part.geometry ∉ touched c := by
      cases c with
      | openPanel | extendDepth => contradiction
      | _ => simp [touched]
    refine named_slots (rowRule_touches c l p s .geometry geometry) (rowRule_touches c l p s .panel panel)
      (rowRule_owner c l p s hr h5 h6) ?_
    have kept : SlotsNamed c s s := slotsNamed_kept rfl
    by_cases archive : Part.archive ∉ touched c
    · exact slotsNamed_kept (rowRule_touches c l p s .archive archive)
    · cases c with
      | readArchive => exact payloadOf_keeps kept (readArchiveBody_slots l p s)
      | eraseSlot =>
        refine payloadOf_keeps kept ?_
        unfold eraseSlotBody
        dsimp only
        split
        · exact kept
        · split
          · exact kept
          · split
            · exact kept
            · rename_i e; exact slotsNamed_setSlot (by rw [e]; nofun) _ rfl
            · rename_i e; exact slotsNamed_setSlot (by rw [e]; nofun) _ rfl
            all_goals exact kept
      | wipeArchive =>
        refine emptyPayload_keeps kept ?_
        unfold wipeArchiveBody
        split
        · exact kept
        · exact wipeNext_slots fun _ h => h
      | closePanel => contradiction
      | _ => first | exact absurd rfl hr | exact absurd (by decide) archive

theorem eventRule_named (c : Instr) {s : State} (h : ArchiveLaw s) (he : eventTime s c ≠ none) :
    Named c s (eventRule c s) := by
  by_cases page : ∃ v, c = .pageProgramCompletion v
  · obtain ⟨v, rfl⟩ := page
    exact pageDone_named h v
  · have panel : Part.panel ∉ touched c := by
      cases c with
      | pageProgramCompletion v => exact absurd ⟨v, rfl⟩ page
      | openPanel | closePanel | abandonPanel => exact absurd rfl he
      | _ => simp [touched]
    have geometry : Part.geometry ∉ touched c := by
      cases c with
      | openPanel | extendDepth => exact absurd rfl he
      | _ => simp [touched]
    refine named_slots (eventRule_touches c s .geometry geometry) (eventRule_touches c s .panel panel) ?_ ?_
    · by_cases demand : Part.demand ∉ touched c
      · rw [show (eventRule c s).demand = s.demand from eventRule_touches c s .demand demand]
      · cases c with
        | warm => simp [eventRule, warmState, warmDemand]
        | wheelDemandExpiry => simp [eventRule, expireWheel, setExpired]
        | _ => first | exact absurd rfl he | exact absurd (by simp [touched]) demand
    · by_cases archive : Part.archive ∉ touched c
      · exact slotsNamed_kept (eventRule_touches c s .archive archive)
      · cases c with
        | eraseCompletion blank => exact eraseDone_slots h blank
        | pageProgramCompletion v => exact absurd ⟨v, rfl⟩ page
        | restitchStepCompletion =>
          have restitched (w : Walker) : (restitch w s).archive = s.archive := restitch_touches w s .archive (by decide)
          have done (w : Walker) : (restitchDone w s).archive.slots = s.archive.slots := by
            unfold restitchDone
            dsimp only
            split
            · rw [endWalkStage_slots, restitched]
            · rw [restitched]
          refine slotsNamed_of_held fun i hi => ?_
          unfold State.slot at *
          simp only [eventRule]
          split
          · rw [done]; exact hi
          · exact hi
        | _ => first | exact absurd rfl he | exact absurd (by simp [touched]) archive

theorem cold_slots {c : Instr} {s t : State} (ht : t.archive = (coldState s).archive) : SlotsNamed c s t :=
  slotsNamed_of_held fun i hi => by
    have slot : t.slot i = coldSlot (s.slot i) := by
      unfold State.slot
      rw [ht]
      simp [coldState, coldArchive, List.getD_eq_getElem?_getD, held_lt hi]
    rw [slot]
    simp [coldSlot, hi]

/-- Settles O16: row by row and event by event. -/
theorem recordPanelOwnerAndSlotChangeOnlyAsNamed : Obligations.RecordPanelOwnerAndSlotChangeOnlyAsNamed := by
  intro c s t hs h
  by_cases h1 : c = .cold
  · subst h1; cases h; exact ⟨fun g => absurd rfl g, cold_slots rfl⟩
  by_cases h2 : c = .resetLineAssert
  · subst h2; cases h; exact ⟨fun _ g => absurd rfl g, cold_slots rfl⟩
  suffices named : Named c s t from ⟨fun _ _ => ⟨named.geometry, named.panel, named.owner⟩, named.slots⟩
  rcases exec_cases h with
    rfl | ⟨e, -⟩ | ⟨e, -⟩ | ⟨a, b, rfl, rfl⟩ | ⟨kind, acc, l, f, hr, -, rfl⟩ | ⟨due, -, -, he, rfl⟩
  · exact named_refl c _
  · exact absurd e h1
  · exact absurd e h2
  · exact named_slots rfl rfl rfl (slotsNamed_kept rfl)
  · have row : requestRow c ≠ none := by rw [hr]; nofun
    have taken : Touches [.depth] s (takeHead l s) := touches_mono (takeHead_touches l s) (by simp)
    have replied (a : Answer) (u : State) : Touches [.depth] u (buildReply l f a u) :=
      touches_mono (buildReply_touches l f a u) (by simp)
    rcases serve_cases acc l f (rowRule c) s with ⟨a, e⟩ | ⟨a, -, e⟩ <;> rw [e]
    · exact named_congr (named_refl c _) taken (replied a _)
    · exact named_congr (rowRule_named c l f.payload row) taken (replied a _)
  · have law : ArchiveLaw (s.reach due) := archiveLaw_kept hs rfl rfl fun _ => rfl
    have named := eventRule_named c law (mt (eventTime_reach s due c).mp (by rw [he]; nofun))
    exact named_congr named (by simp [touches_iff]) (touches_refl _ _)

end Sys2Proof.Machine
end

section
/-! How a command is seen to complete: an event by its rule at its time (`exec_due`, `happens_of_rule`), a granted
request by its block's rule (`serves_of_rule`, `completes_of_rule`). Then the links themselves (R163 to R169). -/

namespace Sys2Proof.Machine

open Sys2Proof.Safety

/-! ## Events -/

/-- What has a time is an event. -/
theorem requestRow_of_event {c : Instr} {s : State} (h : eventTime s c ≠ none) :
    requestRow c = none ∧ c ≠ .cold ∧ c ≠ .resetLineAssert := by
  cases c <;> first | exact absurd rfl h | exact ⟨rfl, nofun, nofun⟩

/-- An event that is due is taken at its time. -/
theorem exec_due {c : Instr} {s : State} {due : Nat} (hs : s.resetLine = false) (h : eventTime s c = some due) :
    exec c s = .next (eventRule c (s.reach due)) := by
  obtain ⟨row, h1, h2⟩ := requestRow_of_event (c := c) (s := s) (by rw [h]; nofun)
  rw [exec_event row h1 h2 hs, h]
  rfl

theorem completes_due {c : Instr} {s : State} {due : Nat} {post : State → Prop} (hs : s.resetLine = false)
    (h : eventTime s c = some due) (hp : post (eventRule c (s.reach due))) : Completes c s post :=
  ⟨_, exec_due hs h, hp⟩

/-- An event that is due, whose rule gives `u` with flags raised. -/
theorem happens_of_rule {c : Instr} {fs : List Flag} {s u : State} {due : Nat} (hs : s.resetLine = false)
    (h : eventTime s c = some due)
    (hu : eventRule c (s.reach due) = { u with links := raisedLinks (flagsOfList fs) s.links }) : Happens c fs s u := by
  refine completes_due hs h ⟨?_, (linksKept_iff _ _ _).mpr ?_⟩ <;> rw [hu]

/-- A rule whose state is `u` but for the links, where these flags were raised. -/
theorem happens_of_kept {c : Instr} {fs : List Flag} {s u : State} {due : Nat} (hs : s.resetLine = false)
    (h : eventTime s c = some due)
    (hu : eventRule c (s.reach due) = { u with links := (eventRule c (s.reach due)).links })
    (hk : (eventRule c (s.reach due)).links = raisedLinks (flagsOfList fs) s.links) : Happens c fs s u :=
  completes_due hs h ⟨hu, (linksKept_iff _ _ _).mpr hk⟩

/-! ## Requests -/

/-- A granted request that the table allows: the rule's state `v` differs from `u` in the links only, where these flags
were raised. -/
theorem completes_of_rule {c : Instr} {kind : Byte} {acc : Access} {s v : State} {l : Link} {f : Frame} {a : Answer}
    {fs : List Flag} {post : State → Prop} (row : requestRow c = some (kind, acc)) (h : Granted kind l f s)
    (hb : barred s.demand.owner l acc = none) (hx : rowRule c l f.payload (takeHead l s) = (v, a))
    (hk : v.links = raisedLinks (flagsOfList fs) (takeHead l s).links)
    (hp : ∀ t, t = { v with links := t.links } → Raised fs s t → Answered l f a (s.link l).mask false s t → post t) :
    Completes c s post := by
  refine ⟨_, exec_row row s, ?_⟩
  obtain ⟨same, raised, answered⟩ := serve_spec (fs := fs) (u := v) (a := a) (body := rowRule c) h hb (by rw [hx]) (by rw [hx])
    (by rw [hx]; exact (linksKept_iff _ _ _).mpr hk) (request kind acc (rowRule c) s) rfl
  exact hp _ same raised answered

theorem serves_of_rule {c : Instr} {kind : Byte} {acc : Access} {s u : State} {l : Link} {f : Frame} {a : Answer}
    {fs : List Flag} (row : requestRow c = some (kind, acc)) (h : Granted kind l f s)
    (hb : barred s.demand.owner l acc = none)
    (hx : rowRule c l f.payload (takeHead l s)
      = ({ u with links := raisedLinks (flagsOfList fs) (takeHead l s).links }, a)) : Serves c l f a fs s u :=
  completes_of_rule row h hb hx rfl fun _ same raised answered => ⟨same, raised, answered⟩

/-- A request whose block's rule leaves the links alone. -/
theorem serves_quietly {c : Instr} {kind : Byte} {acc : Access} {s u : State} {l : Link} {f : Frame} {a : Answer}
    (row : requestRow c = some (kind, acc)) (h : Granted kind l f s) (hb : barred s.demand.owner l acc = none)
    (hx : rowRule c l f.payload (takeHead l s) = ({ u with links := (takeHead l s).links }, a)) : Serves c l f a [] s u :=
  serves_of_rule row h hb (hx.trans (by rw [flagsOfList_nil]; exact congrArg (fun n => ({ u with links := n }, a)) (raisedLinks_zero _).symm))

/-- A request that its block's rule refuses. -/
theorem refuses_of_rule {c : Instr} {kind : Byte} {acc : Access} {s : State} {l : Link} {f : Frame} {r : Reason}
    {p : List Byte} (row : requestRow c = some (kind, acc)) (h : Granted kind l f s)
    (hb : barred s.demand.owner l acc = none)
    (hx : rowRule c l f.payload (takeHead l s) = (takeHead l s, refusal r p)) : Refuses c l f r p s :=
  serves_quietly row h hb (hx.trans (by rw [← takeHead_eq]; rfl))

/-- A request that changes nothing is answered. -/
theorem serves_unchanged {c : Instr} {kind : Byte} {acc : Access} {s : State} {l : Link} {f : Frame} {a : Answer}
    (row : requestRow c = some (kind, acc)) (h : Granted kind l f s) (hb : barred s.demand.owner l acc = none)
    (hx : rowRule c l f.payload (takeHead l s) = (takeHead l s, a)) : Serves c l f a [] s s :=
  serves_quietly row h hb (hx.trans (by rw [← takeHead_eq]))

theorem payloadOf_length {n : Nat} {p : List Byte} (h : p.length = n) (body : Link → List Byte → State → State × Answer)
    (l : Link) (s : State) : payloadOf n body l p s = body l p s := by
  unfold payloadOf; rw [if_pos h]

theorem payloadOf_length_ne {n : Nat} {p : List Byte} (h : p.length ≠ n)
    (body : Link → List Byte → State → State × Answer) (l : Link) (s : State) :
    payloadOf n body l p s = (s, refusal .badLength) := by
  unfold payloadOf; rw [if_neg h]

/-! ## Receiving a frame (R163 to R165) -/

/-- A frame in progress after the bytes `body` is not complete, and its length is allowed. -/
theorem receiveByte_collect {sil : Nat} {x : LinkState} {got : List Byte} {b : Byte}
    (h : got.length + 1 < 3 ∨ (((got ++ [b]).getD 2 0).toNat ≤ 240 ∧ got.length + 1 < 5 + ((got ++ [b]).getD 2 0).toNat)) :
    receiveByte sil { x with receiver := some got } b = { x with receiver := some (got ++ [b]) } := by
  simp only [receiveByte, List.length_append, List.length_singleton]
  rcases h with short | ⟨allowed, more⟩
  · simp only [if_pos short]
  · split
    · rfl
    · simp only [if_neg (not_lt.mpr allowed)]

/-- The first bytes of a frame are collected. -/
theorem collect_take {sil : Nat} {x : LinkState} {full : List Byte} {len : Nat} (hl : len ≤ 240)
    (third : (full.getD 2 0).toNat = len) {n : Nat} (hn : n < full.length) (short : n < 5 + len) :
    (full.take n).foldl (receiveByte sil) { x with receiver := some [] } = { x with receiver := some (full.take n) } := by
  induction n with
  | zero => rfl
  | succ n ih =>
    rw [List.take_succ_eq_append_getElem (by omega), List.foldl_append, ih (by omega) (by omega)]
    refine receiveByte_collect ?_
    rw [List.length_take, Nat.min_eq_left (by omega), ← List.take_succ_eq_append_getElem (by omega)]
    by_cases g : n + 1 < 3
    · exact .inl g
    · have kept : (full.take (n + 1)).getD 2 0 = full.getD 2 0 := by
        simp only [List.getD_eq_getElem?_getD, List.getElem?_take]
        rw [if_pos (by omega)]
      rw [kept, third]
      exact .inr ⟨hl, short⟩

/-- Bytes that are no marker leave an idle receiver as it is. -/
theorem receive_idle {sil : Nat} {x : LinkState} {idle : List Byte} (hx : x.receiver = none) (hi : marker ∉ idle) :
    idle.foldl (receiveByte sil) x = x := by
  induction idle with
  | nil => rfl
  | cons b bs ih =>
    have skipped : receiveByte sil x b = x := by
      unfold receiveByte
      rw [hx]
      exact if_neg fun e : b = marker => hi (e ▸ List.mem_cons_self)
    rw [List.foldl_cons, skipped]
    exact ih fun m => hi (List.mem_cons_of_mem _ m)

theorem receive_marker {sil : Nat} {x : LinkState} (hx : x.receiver = none) :
    receiveByte sil x marker = { x with receiver := some [] } := by
  unfold receiveByte; rw [hx]; exact if_pos rfl

/-- What the last byte of a frame does: the check decides. -/
def endFrame (sil : Nat) (body : List Byte) (x : LinkState) : LinkState :=
  if checkPasses body then acceptFrame sil (frameOf body) { x with receiver := none }
  else discardFrame { x with receiver := none }

/-- A whole frame, after its marker. -/
theorem receive_frame {sil : Nat} {x : LinkState} {seq kind len c1 c2 : Byte} {payload : List Byte}
    (hp : payload.length = len.toNat) (hl : len.toNat ≤ 240) :
    (seq :: kind :: len :: payload ++ [c1, c2]).foldl (receiveByte sil) { x with receiver := some [] }
      = endFrame sil (seq :: kind :: len :: payload ++ [c1, c2]) x := by
  have split : seq :: kind :: len :: payload ++ [c1, c2] = (seq :: kind :: len :: payload ++ [c1]) ++ [c2] := by simp
  have collected := collect_take (sil := sil) (x := x) (full := seq :: kind :: len :: payload ++ [c1, c2]) hl rfl
    (n := 4 + len.toNat) (by simp [hp]; omega) (by omega)
  have taken : (seq :: kind :: len :: payload ++ [c1, c2]).take (4 + len.toNat) = seq :: kind :: len :: payload ++ [c1] := by
    rw [split, List.take_append_of_le_length (by simp [hp]; omega), List.take_of_length_le (by simp [hp]; omega)]
  rw [taken] at collected
  rw [split, List.foldl_append, collected, List.foldl_cons, List.foldl_nil, ← split]
  have body : (seq :: kind :: len :: payload ++ [c1] ++ [c2]) = seq :: kind :: len :: payload ++ [c1, c2] := split.symm
  simp only [receiveByte, body]
  have third : (seq :: kind :: len :: payload ++ [c1, c2]).getD 2 0 = len := rfl
  have length : (seq :: kind :: len :: payload ++ [c1, c2]).length = 5 + len.toNat := by simp [hp]; omega
  rw [third, length, if_neg (by omega), if_neg (by omega), if_neg (by omega)]
  rfl

theorem checkPasses_iff {seq kind len c1 c2 : Byte} {payload : List Byte} :
    checkPasses (seq :: kind :: len :: payload ++ [c1, c2]) = true ↔ [c1, c2] = checkBytes (seq :: kind :: len :: payload) := by
  have front : (seq :: kind :: len :: payload ++ [c1, c2]).take ((seq :: kind :: len :: payload ++ [c1, c2]).length - 2)
      = seq :: kind :: len :: payload := by simp
  have back : (seq :: kind :: len :: payload ++ [c1, c2]).drop ((seq :: kind :: len :: payload ++ [c1, c2]).length - 2)
      = [c1, c2] := by simp
  simp only [checkPasses, front, back, decide_eq_true_eq]
  exact eq_comm

theorem frameOf_eq (seq kind len c1 c2 : Byte) (payload : List Byte) :
    frameOf (seq :: kind :: len :: payload ++ [c1, c2]) = { seq := seq, kind := kind, payload := payload } := by
  simp [frameOf]

theorem exec_frameReceived {s : State} (hs : s.resetLine = false) (l : Link) {bytes : List Byte} (hb : bytes ≠ []) :
    exec (.frameReceived l bytes) s
      = .next (s.setLink l (setPause (s.clock + 10001) (bytes.foldl (receiveByte (s.inMs 3000)) (s.link l)))) := by
  rw [exec_due (c := .frameReceived l bytes) hs rfl, reach_clock_self]
  simp [eventRule, receiveBytes, hb]

theorem setPause_idle {due : Nat} {x : LinkState} (hx : x.receiver = none) : setPause due x = { x with bytePause := none } := by
  simp [setPause, hx]

/-- Settles O17: the bytes of a frame are collected up to the last one, whose check passes. -/
theorem validFrameJoinsQueue : Obligations.ValidFrameJoinsQueue := by
  intro s l idle f hs hx hi hp
  rw [exec_frameReceived hs l (by simp [requestBytes])]
  congr 1
  congr 1
  have len : (BitVec.ofNat 8 f.payload.length).toNat = f.payload.length := by
    rw [BitVec.toNat_ofNat]; exact Nat.mod_eq_of_lt (by omega)
  obtain ⟨c1, c2, check⟩ : ∃ c1 c2, checkBytes (f.seq :: f.kind :: BitVec.ofNat 8 f.payload.length :: f.payload) = [c1, c2] :=
    ⟨_, _, rfl⟩
  have sent : requestBytes f
      = marker :: (f.seq :: f.kind :: BitVec.ofNat 8 f.payload.length :: f.payload ++ [c1, c2]) := by
    rw [← check]; rfl
  rw [List.foldl_append, receive_idle hx hi, sent, List.foldl_cons, receive_marker hx, receive_frame len.symm (by omega),
    endFrame, if_pos (checkPasses_iff.mpr check.symm), frameOf_eq]
  unfold acceptFrame
  dsimp only
  split
  · rename_i room
    have fewer : (s.link l).rx.length < 4 := room
    rw [setPause_idle rfl]
    simp [fewer, hx, State.inMs]
  · rename_i full
    have four : 4 ≤ (s.link l).rx.length := not_lt.mp full
    rw [setPause_idle rfl]
    simp [four, hx, State.inMs]

/-- Settles O18: the third byte decides an over-long frame, the last one a failing check, the pause a frame in
progress. -/
theorem badFrameIsDiscarded : Obligations.BadFrameIsDiscarded := by
  intro s l hs
  refine ⟨fun seq kind len hx long => ?_, fun seq kind len c1 c2 payload hx hp hl bad => ?_, fun due hd => ?_⟩
  · rw [exec_frameReceived hs l (List.cons_ne_nil _ _)]
    congr 1
    congr 1
    rw [List.foldl_cons, receive_marker hx]
    have discarded : receiveByte (s.inMs 3000) { s.link l with receiver := some [seq, kind] } len
        = discardFrame { s.link l with receiver := none } := by
      simp [receiveByte, long]
    rw [List.foldl_cons, receiveByte_collect (.inl (by decide)), List.foldl_cons, receiveByte_collect (.inl (by simp))]
    change setPause _ (receiveByte (s.inMs 3000) { s.link l with receiver := some [seq, kind] } len) = _
    rw [discarded, setPause_idle rfl]
    simp [discardFrame, LinkState.raise, FlagSet.with, hx]
  · rw [exec_frameReceived hs l (by simp)]
    congr 1
    congr 1
    change setPause _ (List.foldl _ (s.link l) (marker :: (seq :: kind :: len :: payload ++ [c1, c2]))) = _
    rw [List.foldl_cons, receive_marker hx, receive_frame hp hl, endFrame, if_neg (mt checkPasses_iff.mp bad),
      setPause_idle rfl]
    simp [discardFrame, LinkState.raise, FlagSet.with, hx]
  · rw [exec_due (c := .bytePauseTimeout l) hs hd]
    cases l <;> rfl

/-- Settles O19: the two rules of the links, with the flag's raise over the change of the link. -/
theorem replyLeavesAndLinkFallsSilent : Obligations.ReplyLeavesAndLinkFallsSilent := by
  intro s l hs
  refine ⟨fun r rs hr => ?_, fun due hd => ?_⟩
  · rw [exec_due (c := .replySent l) hs rfl, reach_clock_self]
    simp only [eventRule, sendReply, hr]
  · refine completes_due (c := .silenceExpiry l) hs hd ?_
    change let t := fallSilent l (s.reach due); _
    refine ⟨?_, ?_, ?_, ?_, ?_, ?_, ?_⟩
    · cases l <;> rfl
    · cases l <;> rfl
    · cases l <;> rfl
    · cases l <;> rfl
    · intro k
      cases l <;> cases k <;> simp [eventRule, fallSilent, raise, State.link, State.setLink, LinkState.raise, FlagSet.with]
    · cases l <;> rfl
    · intro k hk
      cases l <;> cases k <;> first | exact absurd rfl hk | rfl

end Sys2Proof.Machine
end

section
/-! Flags and restart (10.5), the archive's commands (11.3 to 11.5) and the station entry (12.4). -/

namespace Sys2Proof.Machine

open Sys2Proof.Safety

/-! ## States field by field -/

theorem state_eq {t u : State} (resetLine : t.resetLine = u.resetLine) (clock : t.clock = u.clock)
    (panel : t.panel = u.panel) (geometry : t.geometry = u.geometry) (acq : t.acq = u.acq) (depth : t.depth = u.depth)
    (table : t.table = u.table) (align : t.align = u.align) (drives : t.drives = u.drives)
    (plates : t.plates = u.plates) (ret : t.ret = u.ret) (demand : t.demand = u.demand) (links : t.links = u.links)
    (archive : t.archive = u.archive) (draws : t.draws = u.draws) (pending : t.pending = u.pending) : t = u := by
  cases t
  cases u
  congr

@[simp] theorem reach_clock_max (s : State) (n : Nat) : (s.reach n).clock = max s.clock n := rfl

/-! ## A request with its rule's state as it is -/

/-- What a granted request that the table allows leaves. -/
theorem exec_served {c : Instr} {kind : Byte} {acc : Access} {s v : State} {l : Link} {f : Frame} {a : Answer}
    (row : requestRow c = some (kind, acc)) (h : Granted kind l f s) (hb : barred s.demand.owner l acc = none)
    (hx : rowRule c l f.payload (takeHead l s) = (v, a)) : exec c s = .next (buildReply l f a v) := by
  have allowed : linkRefusal acc (takeHead l s) l = none := by rw [linkRefusal_eq]; simpa using hb
  rw [exec_row row, request_granted h]
  simp only [serve, allowed, hx]

/-! ## ALERT, CLEAR FLAGS, SET MASK, RESTART (R171, R172, R15) -/

theorem ne_zero_iff_getLsbD (x : BitVec 17) : x ≠ 0 ↔ ∃ i, i < 17 ∧ x.getLsbD i = true := by
  refine ⟨fun h => ?_, fun ⟨i, _, hi⟩ e => by rw [e] at hi; simp at hi⟩
  by_contra none
  refine h (BitVec.eq_of_getLsbD_eq fun i hi => ?_)
  have clear : x.getLsbD i ≠ true := fun g => none ⟨i, hi, g⟩
  simpa using clear

theorem alert_iff (x : LinkState) :
    x.alert = true ↔ ∃ i, i < 17 ∧ x.flags.getLsbD i = true ∧ x.mask.getLsbD i = false := by
  unfold LinkState.alert
  rw [bne_iff_ne, ne_zero_iff_getLsbD]
  refine exists_congr fun i => and_congr_right fun hi => ?_
  rw [BitVec.getLsbD_and, BitVec.getLsbD_not]
  simp [hi]

/-- A flag set of three bytes. -/
theorem flagsOf_three (a b c : Byte) :
    flagsOf [a, b, c] = BitVec.ofNat 17 (a.toNat * 65536 + b.toNat * 256 + c.toNat) := by
  have value : unsignedOf [a, b, c] = ((a.toNat * 65536 + b.toNat * 256 + c.toNat : Nat) : Int) := by
    simp only [unsignedOf, List.foldl_cons, List.foldl_nil]
    push_cast
    ring
  rw [flagsOf, value, BitVec.ofInt_natCast]

/-- Settles O57: each rule changes one field of the sender's link, or marks the RESTART, before the reply is built. -/
theorem flagsClearMaskAndRestart : Obligations.FlagsClearMaskAndRestart := by
  refine ⟨alert_iff, fun s l f => ⟨fun a b c hp => ⟨fun h => ?_, fun h => ?_⟩, fun h hp => ?_⟩⟩
  · have restarting := grant_restarting h.2.1
    refine ⟨_, exec_served (v := (clearFlagsBody l f.payload (takeHead l s)).1)
      (a := { outcome := .done }) (c := .clearFlags) rfl h rfl ?_, ?_, ?_, ?_, ?_, ?_, ?_, ?_, ?_⟩
    · exact payloadOf_length (by rw [hp]; rfl) _ _ _
    · cases l <;> rfl
    · rw [hp]; cases l <;> simp [clearFlagsBody, flagsOf_three, buildReply, takeHead, State.setLink, State.link, noteGrant]
    · intro k hk; cases l <;> cases k <;> first | exact absurd rfl hk | rfl
    · cases l <;> rfl
    · intro k hk; cases l <;> cases k <;> first | exact absurd rfl hk | rfl
    · cases l <;> rfl
    · cases l <;> simp [clearFlagsBody, buildReply, takeHead, State.setLink, State.link, noteGrant] <;> split <;> rfl
    · cases l <;> exact restarting
  · have restarting := grant_restarting h.2.1
    refine ⟨_, exec_served (v := (setMaskBody l f.payload (takeHead l s)).1)
      (a := { outcome := .done }) (c := .setMask) rfl h rfl ?_, ?_, ?_, ?_, ?_, ?_, ?_, ?_⟩
    · exact payloadOf_length (by rw [hp]; rfl) _ _ _
    · cases l <;> rfl
    · intro k; cases l <;> cases k <;> simp [setMaskBody, buildReply, takeHead, State.setLink, State.link, noteGrant]
    · rw [hp, ← flagsOf_three]; cases l <;> rfl
    · intro k hk; cases l <;> cases k <;> first | exact absurd rfl hk | rfl
    · cases l <;> rfl
    · cases l <;> simp [setMaskBody, buildReply, takeHead, State.setLink, State.link, noteGrant] <;> split <;> rfl
    · cases l <;> exact restarting
  · refine ⟨_, exec_served (v := (restartBody .cab (takeHead .cab s)).1)
      (a := { outcome := .done }) (c := .restart) rfl h rfl ?_, rfl, ?_, rfl, ?_, rfl, ?_, rfl⟩
    · rw [hp]; rfl
    · intro k; cases k <;> simp [restartBody, buildReply, takeHead, State.setLink, State.link, noteGrant]
    · intro k hk; cases k <;> first | exact absurd rfl hk | rfl
    · simp [restartBody, buildReply, takeHead, State.setLink, noteGrant]
      split <;> rfl

/-! ## READ ARCHIVE (R180) -/

theorem unsignedAt_byte {bytes : List Byte} {b : Byte} {k : Nat} (h : bytes[k]? = some b) :
    (unsignedAt bytes k 1).toNat = b.toNat := by
  have one : slice bytes k 1 = [b] := by
    unfold slice
    rw [List.take_one, List.head?_drop, h]
    rfl
  rw [unsignedAt, one]
  simp [unsignedOf]

theorem getLsbD_pageMark (p i : Nat) : (pageMark p).getLsbD i = (decide (i < 65) && decide (i = p)) := by
  unfold pageMark
  rw [BitVec.getLsbD_shiftLeft, BitVec.getLsbD_one]
  grind

theorem getLsbD_markPages (marks : BitVec 65) (pages : List Nat) (i : Nat) :
    (markPages marks pages).getLsbD i = (marks.getLsbD i || (decide (i < 65) && decide (i ∈ pages))) := by
  unfold markPages
  induction pages generalizing marks with
  | nil => simp
  | cons p ps ih =>
    rw [List.foldl_cons, ih, BitVec.getLsbD_or, getLsbD_pageMark]
    grind

theorem mem_pageNumbers {n first count p : Nat} :
    p ∈ pageNumbers n first count ↔ ∃ j, j < count ∧ p = (first + j) % n := by
  simp [pageNumbers, eq_comm]

theorem allRead_iff (marks : BitVec 65) (n : Nat) : allRead marks n = true ↔ ∀ p, p < n → marks.getLsbD p = true := by
  simp [allRead]

theorem pageField_eq (x : Slot) (p : Nat) :
    pageField x p = laid [(1, (p : Int)), (2, (x.pages.getD p []).length)] ++ x.pages.getD p [] := by
  simp [pageField, laid]

theorem archiveBusy_iff (s : State) : s.archiveBusy = true ↔ s.archive.engine ≠ .idle := by
  simp [State.archiveBusy]

@[simp] theorem takeHead_slot (l : Link) (s : State) (i : Nat) : (takeHead l s).slot i = s.slot i := by
  unfold State.slot; rw [takeHead_archive]

@[simp] theorem takeHead_archiveBusy (l : Link) (s : State) : (takeHead l s).archiveBusy = s.archiveBusy := by
  unfold State.archiveBusy; rw [takeHead_archive]

/-- READ ARCHIVE with its three bytes (R180). -/
theorem readArchiveBody_eq (l : Link) (a b c : Byte) (s : State) : readArchiveBody l [a, b, c] s =
    if s.archiveBusy then (s, refusal .busy)
    else if 7 < a.toNat ∨ c.toNat = 0 ∨ 4 < c.toNat then (s, refusal .badValue)
    else if (s.slot a.toNat).state ≠ .held ∧ (s.slot a.toNat).state ≠ .released then (s, refusal .wrongState)
    else if (s.slot a.toNat).pageCount.getD 0 ≤ b.toNat ∨ (s.slot a.toNat).pageCount.getD 0 < c.toNat then
      (s, refusal .badValue)
    else
      (s.setSlot a.toNat (readSlot (s.slot a.toNat) ((s.slot a.toNat).pageCount.getD 0)
          (pageNumbers ((s.slot a.toNat).pageCount.getD 0) b.toNat c.toNat)),
        doneWith ((pageNumbers ((s.slot a.toNat).pageCount.getD 0) b.toNat c.toNat).map
          (pageField (s.slot a.toNat))).flatten) := by
  have first : (unsignedAt [a, b, c] 0 1).toNat = a.toNat := unsignedAt_byte rfl
  have second : (unsignedAt [a, b, c] 1 1).toNat = b.toNat := unsignedAt_byte rfl
  have third : (unsignedAt [a, b, c] 2 1).toNat = c.toNat := unsignedAt_byte rfl
  simp only [readArchiveBody, first, second, third]

/-- What a read does to the marks and the state of a readable slot. -/
theorem readSlot_spec {x : Slot} {n first count : Nat} (readable : x.state = .held ∨ x.state = .released) (hn : 0 < n)
    (h65 : n ≤ 65) :
    let y := readSlot x n (pageNumbers n first count)
    y = { x with readMarks := y.readMarks, state := y.state }
    ∧ (∀ p, p < n → (y.readMarks.getLsbD p = true ↔ x.readMarks.getLsbD p = true ∨
        ∃ j, j < count ∧ p = (first + j) % n))
    ∧ (∀ p, n ≤ p → y.readMarks.getLsbD p = x.readMarks.getLsbD p)
    ∧ (y.state = .released ↔ x.state = .released ∨ ∀ p, p < n → y.readMarks.getLsbD p = true)
    ∧ (y.state ≠ .released → y.state = .held) := by
  intro y
  have marks : y.readMarks = markPages x.readMarks (pageNumbers n first count) := rfl
  have state : y.state = if x.state = .held ∧ allRead y.readMarks n then .released else x.state := rfl
  refine ⟨rfl, fun p hp => ?_, fun p hp => ?_, ?_, fun h => ?_⟩
  · rw [marks, getLsbD_markPages, ← mem_pageNumbers]
    simp [show p < 65 by omega]
  · have outside : p ∉ pageNumbers n first count := fun m => by
      obtain ⟨j, -, e⟩ := mem_pageNumbers.mp m
      have := Nat.mod_lt (first + j) hn
      omega
    rw [marks, getLsbD_markPages]
    simp [outside]
  · rw [state, ← allRead_iff]
    rcases readable with held | released
    · simp [held]
    · simp [released]
  · rw [state] at h ⊢
    rcases readable with held | released
    · simp only [held, true_and] at h ⊢
      split at h
      · exact absurd rfl h
      · rename_i unread; rw [if_neg unread]
    · simp [released] at h

/-- Settles O58: R180's checks in order, and the read of the slot. -/
theorem readArchiveReturnsAndMarksPages : Obligations.ReadArchiveReturnsAndMarksPages := by
  intro s f a b c h hp x n readable badSlot badPage idle
  have row : rowRule .readArchive .record f.payload (takeHead .record s)
      = readArchiveBody .record [a, b, c] (takeHead .record s) := by
    rw [hp]; exact payloadOf_length rfl _ _ _
  rw [readArchiveBody_eq, takeHead_archiveBusy, takeHead_slot] at row
  have free (hi : idle) : ¬s.archiveBusy = true := fun g => (archiveBusy_iff s).mp g hi
  refine ⟨fun hi => ?_, fun hi bad => ?_, fun hi ok unreadable => ?_, fun hi ok can bad => ?_, fun hi ok can good len h65 => ?_⟩
  · exact refuses_of_rule (c := .readArchive) rfl h rfl (by rw [row, if_pos ((archiveBusy_iff s).mpr hi)])
  · exact refuses_of_rule (c := .readArchive) rfl h rfl (by rw [row, if_neg (free hi), if_pos bad])
  · exact refuses_of_rule (c := .readArchive) rfl h rfl
      (by rw [row, if_neg (free hi), if_neg ok, if_pos (not_or.mp unreadable)])
  · exact refuses_of_rule (c := .readArchive) rfl h rfl
      (by rw [row, if_neg (free hi), if_neg ok, if_neg (fun g => can.elim g.1 g.2), if_pos bad])
  · rw [if_neg (free hi), if_neg ok, if_neg (fun g => can.elim g.1 g.2), if_neg good] at row
    obtain ⟨pages, size⟩ := not_or.mp good
    have here : a.toNat < s.archive.slots.length := by rw [len]; have := not_or.mp ok; omega
    refine completes_of_rule (c := .readArchive) (fs := []) rfl h rfl row (by simp [State.setSlot])
      fun t same raised answered => ?_
    have read : t.slot a.toNat = readSlot x n (pageNumbers n b.toNat c.toNat) := by
      rw [same]
      exact (setSlot_slot (takeHead .record s) (by rw [takeHead_archive]; exact here) _ _).trans (if_pos rfl)
    have spec := readSlot_spec (x := x) (first := b.toNat) (count := c.toNat) can (n := n) (by omega) h65
    rw [← read] at spec
    obtain ⟨form, set, kept, release, held⟩ := spec
    refine ⟨?_, form, set, kept, release, held, raised, ?_⟩
    · rw [read, same]
      rfl
    · have payload : ((pageNumbers n b.toNat c.toNat).map (pageField x)).flatten
          = ((List.range c.toNat).map fun j =>
            laid [(1, ((b.toNat + j) % n : Nat)), (2, (x.pages.getD ((b.toNat + j) % n) []).length)]
              ++ x.pages.getD ((b.toNat + j) % n) []).flatten := by
        simp only [pageNumbers, List.map_map, Function.comp_def, pageField_eq]
      change Answered .record f (doneWith ((pageNumbers n b.toNat c.toNat).map (pageField x)).flatten) _ _ _ _ at answered
      rw [payload] at answered
      exact answered

/-! ## ERASE SLOT, WIPE ARCHIVE and the erase completion (R178, R179) -/

theorem eraseEnd_eq (i : Nat) (blank : Bool) (s : State) : eraseEnd i blank s =
    { s.setSlot i (erased blank (s.slot i)) with links := raisedLinks (flagsOfList (eraseFlags blank)) s.links } := by
  cases blank <;> simp [eraseEnd, erased, eraseFlags, State.setSlot, raise, raisedLinks, LinkState.raise, FlagSet.with]

theorem slotsToWipe_eq (s : State) :
    s.slotsToWipe = (List.range s.archive.slots.length).filter fun i => decide ((s.slot i).state ≠ .empty) := by
  unfold State.slotsToWipe
  exact List.filter_congr fun i _ => by cases (s.slot i).state <;> rfl

/-- Settles O59: R178 and R179 by the slot's state, and by what the wipe has still to erase. -/
theorem eraseAndWipeEmptySlots : Obligations.EraseAndWipeEmptySlots := by
  refine ⟨?_, ?_, ?_⟩
  · intro s f b h hp i idle
    have row : rowRule .eraseSlot .record f.payload (takeHead .record s) = eraseSlotBody .record [b] (takeHead .record s) := by
      rw [hp]; exact payloadOf_length rfl _ _ _
    simp only [eraseSlotBody, List.headD_cons, takeHead_archiveBusy, takeHead_slot] at row
    have free (hi : idle) : ¬s.archiveBusy = true := fun g => (archiveBusy_iff s).mp g hi
    refine ⟨fun hi => ?_, fun hi out => ?_, fun hi inside held => ?_, fun hi inside empty => ?_, fun hi inside ready => ?_⟩
    · exact refuses_of_rule (c := .eraseSlot) rfl h rfl (by rw [row, if_pos ((archiveBusy_iff s).mpr hi)])
    · exact refuses_of_rule (c := .eraseSlot) rfl h rfl (by rw [row, if_neg (free hi), if_pos out])
    · exact refuses_of_rule (c := .eraseSlot) rfl h rfl (by rw [row, if_neg (free hi), if_neg (not_lt.mpr inside), held])
    · exact refuses_of_rule (c := .eraseSlot) rfl h rfl (by rw [row, if_neg (free hi), if_neg (not_lt.mpr inside), empty])
    · refine serves_quietly (c := .eraseSlot) rfl h rfl ?_
      rw [row, if_neg (free hi), if_neg (not_lt.mpr inside)]
      rcases ready with e | e <;> rw [e] <;> rfl
  · intro s f h hp full
    have row : rowRule .wipeArchive .record f.payload (takeHead .record s) = wipeArchiveBody .record (takeHead .record s) := by
      rw [hp]; rfl
    simp only [wipeArchiveBody, takeHead_archiveBusy, slotsToWipe_eq] at row
    change rowRule _ _ _ _ = if s.archiveBusy = true then _ else (wipeNext full _, _) at row
    have free (hi : s.archive.engine = .idle) : ¬s.archiveBusy = true := fun g => (archiveBusy_iff s).mp g hi
    refine ⟨fun hi => ?_, fun hi none => ?_, fun i rest hi some => ?_⟩
    · exact refuses_of_rule (c := .wipeArchive) rfl h rfl (by rw [row, if_pos ((archiveBusy_iff s).mpr hi)])
    · refine serves_of_rule (c := .wipeArchive) rfl h rfl ?_
      have engine : (takeHead .record s).setEngine .idle = takeHead .record s := by
        apply state_eq <;> simp [State.setEngine, ← hi]
      rw [row, if_neg (free hi), none, wipeNext, engine]
      simp [raise, raisedLinks, LinkState.raise, FlagSet.with]
    · refine serves_quietly (c := .wipeArchive) rfl h rfl ?_
      rw [row, if_neg (free hi), some]
      rfl
  · intro s blank i due hs now slots
    refine ⟨fun last => ?_, fun j rest he hj => ?_⟩
    · refine happens_of_rule (due := due) hs ?_ ?_
      · rcases last with e | e <;> simp [eventTime, e, Engine.erasing]
      · have ended : eraseDone blank (s.reach due) = raise .archiveDone ((eraseEnd i blank (s.reach due)).setEngine .idle) := by
          rcases last with e | e <;> simp [eraseDone, e, wipeNext]
        simp only [eventRule]
        rw [ended, eraseEnd_eq]
        simp [State.setSlot, State.setEngine, raise, raisedLinks, LinkState.raise, FlagSet.with, State.reach, now, slots,
          BitVec.or_assoc, BitVec.or_comm]
        rfl
    · refine happens_of_rule (due := due) hs ?_ ?_
      · simp [eventTime, he, Engine.erasing]
      · have other : (eraseEnd i blank (s.reach due)).slot j = s.slot j := by
          rw [eraseEnd_eq]; exact setSlot_other (s.reach due) hj _
        have ended : eraseDone blank (s.reach due) = wipeNext (j :: rest) (eraseEnd i blank (s.reach due)) := by
          simp [eraseDone, he]
        simp only [eventRule]
        rw [ended, wipeNext, eraseSlot, other, eraseEnd_eq]
        rfl

/-! ## The page program (R177, R11) -/

/-- Settles O60: a page joins the slot, or the write ends. -/
theorem pageProgramsFillTheSlot : Obligations.PageProgramsFillTheSlot := by
  intro s verified i page image due hs he now x grown
  have time : eventTime s (.pageProgramCompletion verified) = some due := by simp [eventTime, he, Engine.programmingDue]
  refine ⟨fun hv more => ?_, fun ends => ?_⟩
  · rw [exec_due hs time]
    simp only [eventRule, pageDone, reach_archive, he, hv, if_true, if_pos more]
    rfl
  · refine completes_due hs time ?_
    have closed {u : State} {y : Slot} {fs : List Flag} (hu : pageDone verified (s.reach due) = closeWriteEnd u)
        (same : u = { (s.reach due).setSlot i y with links := raisedLinks (flagsOfList fs) s.links }) :
        pageDone verified (s.reach due) = { s with
            clock := now, panel := .closed
            depth := Governed s.depth { s.depth.reasons with panel := true }
            table := (pageDone verified (s.reach due)).table
            archive := { slots := s.archive.slots.set i y, engine := .idle }
            links := (pageDone verified (s.reach due)).links }
          ∧ HoldsReviewed s.table (pageDone verified (s.reach due)).table
          ∧ LinksKept (fs ++ .archiveDone :: holdChange s (pageDone verified (s.reach due))) s
              (pageDone verified (s.reach due)) := by
      rw [hu]
      have table : (setPanel .closed (raise .archiveDone (u.setEngine .idle))).table = s.table := by
        rw [same]; simp [setPanel, State.setEngine, State.setSlot]
      refine ⟨?_, ?_, (linksKept_iff _ _ _).mpr ?_⟩
      · rw [same]
        apply state_eq <;> simp [closeWriteEnd, setPanel, State.setEngine, State.setSlot, now]
      · rw [← table]
        exact reviewHolds_spec _
      · have line : (closeWriteEnd u).depth.feedHold = (Governed s.depth { s.depth.reasons with panel := true }).feedHold := by
          rw [same]; simp [closeWriteEnd, setPanel, State.setEngine, State.setSlot]
        simp only [flagsOfList_append, flagsOfList_cons, flagsOfList_holdChange, line]
        rw [same]
        simp [closeWriteEnd, setPanel, State.setEngine, State.setSlot, BitVec.or_assoc]
    cases verified with
    | true =>
      have full : ¬page + 1 < image.length := by
        rcases ends with e | e
        · cases e
        · omega
      refine closed (y := { grown with state := .held }) (fs := []) (u := (s.reach due).setSlot i { grown with state := .held })
        ?_ ?_
      · simp only [pageDone, reach_archive, he, if_true, if_neg full]
        rfl
      · rw [flagsOfList_nil]; exact (congrArg (fun n => { (s.reach due).setSlot i _ with links := n }) (raisedLinks_zero _)).symm
    | false =>
      refine closed (y := { x with state := .faulty }) (fs := [.archiveFault])
        (u := raise .archiveFault ((s.reach due).setSlot i { x with state := .faulty })) ?_ ?_
      · simp only [pageDone, reach_archive, he]
        rfl
      · simp [raise, raisedLinks, LinkState.raise, FlagSet.with, State.setSlot]

/-! ## The station entry (12.4, R184, R185) -/

/-- Rounding to 0.1 mm has one result. -/
theorem roundAway_unique {a x : Int} (h : RoundsTo a 100000 x) : roundAway a 100000 = x := by
  have g := roundAway_roundsTo a (b := 100000) (by decide)
  generalize roundAway a 100000 = y at g
  obtain ⟨nearX, tieX⟩ := h
  obtain ⟨nearY, tieY⟩ := g
  rcases abs_cases (x * 100000 - a) with ⟨e1, _⟩ | ⟨e1, _⟩ <;> rcases abs_cases (y * 100000 - a) with ⟨e2, _⟩ | ⟨e2, _⟩ <;>
    rcases abs_cases (x * 100000) with ⟨e3, _⟩ | ⟨e3, _⟩ <;> rcases abs_cases (y * 100000) with ⟨e4, _⟩ | ⟨e4, _⟩ <;>
    rcases abs_cases a with ⟨e5, _⟩ | ⟨e5, _⟩ <;> rw [e1, e3, e5] at tieX <;> rw [e2, e4, e5] at tieY <;> omega

theorem reportedOffset_eq {a x : Int} (h : RoundsTo a 100000 x) : reportedOffset a = max (-32767) (min 32767 x) := by
  rw [reportedOffset, roundAway_unique h, clamp_eq (by decide)]

/-- Settles O54: an absent station has no record to find, a present one its own. -/
theorem stationEntryCarriesTheRecord : Obligations.StationEntryCarriesTheRecord := by
  intro rs ordered
  refine ⟨fun k absent => ?_, fun r hr x y hx hy => ?_⟩
  · rw [stationEntry, findStation_none.mpr absent]
    simp [laid]
  · simp only [stationEntry, findStation_of_mem ordered hr, reportedOffset_eq hx, reportedOffset_eq hy, Marks.bits, bitSet_eq]
    simp [laid, entryLayout]

end Sys2Proof.Machine
end

section
/-! The readouts (12.5) and READ STATIONS (R72 to R77). -/

namespace Sys2Proof.Machine

open Sys2Proof.Safety

/-! ## Fields -/

@[simp] theorem takeHead_leftMs (l : Link) (s : State) (t : Timer) : (takeHead l s).leftMs t = s.leftMs t := by
  unfold State.leftMs; rw [takeHead_clock]

/-- A time left is rounded to whole ms by less than 1 ms (log entry 4). -/
theorem leftMs_timeLeft (s : State) : TimeLeft s.clock s.leftMs := by
  refine ⟨rfl, fun due => ?_⟩
  have rounding := Config.leftRounding.isLt
  simp only [State.leftMs]
  omega

theorem mark_eq (b : Bool) : bit b = mark b := rfl

theorem indexField_eq (o : Option Nat) : indexField o = field 2 (indexValue o) := by cases o <;> rfl

/-- The reference station is current exactly when a record of its index is there and not stale. -/
theorem currentReference_isSome {s : State} (h : TableLaw s) : s.table.currentReference.isSome
    = s.table.records.any fun q => decide (s.table.reference = some q.index) && !q.stale := by
  obtain ⟨ordered, -⟩ := h
  unfold StationTable.currentReference
  rw [Bool.eq_iff_iff, List.any_eq_true]
  cases href : s.table.reference with
  | none => simp
  | some k =>
    dsimp only
    cases found : findStation s.table.records k with
    | none =>
      have absent := findStation_none.mp found
      simpa using fun q hq (e : k = q.index) => absurd e.symm (absent q hq)
    | some r =>
      obtain ⟨hr, rfl⟩ := findStation_mem found
      simp only [Option.filter_some, Bool.and_eq_true, decide_eq_true_eq]
      constructor
      · intro some
        have fresh : (!r.stale) = true := by
          by_contra stale
          simp [stale] at some
        exact ⟨r, hr, rfl, fresh⟩
      · rintro ⟨q, hq, e, fresh⟩
        have same : q = r := eq_of_index ordered hq hr (Option.some.inj e).symm
        rw [← same]
        simp [fresh]

/-! ## READ STATUS, section by section -/

theorem panelSection_eq (s : State) : panelSection s = laid [(1, s.panel.code), (4, s.geometry.panelId),
    (2, s.geometry.stations), (4, s.geometry.design), (4, s.geometry.length * s.geometry.width / 100)] := by
  simp [panelSection, laid, Geometry.area]

theorem depthSection_eq (s : State) : depthSection s = laid
    [(4, (s.depth.count * s.geometry.encoderStep) / 1000), (1, s.depth.ref.code), (2, s.depth.floor),
      (1, mark s.depth.final), (2, s.depth.lastFeed), (1, s.depth.overCount), (1, mark s.depth.overfeed),
      (2, weights [s.depth.reasons.panel, s.depth.reasons.reference, s.depth.reasons.ret, s.depth.reasons.driveA,
        s.depth.reasons.driveB, s.depth.reasons.wheel, s.depth.reasons.final,
        s.depth.reasons.acqOff || s.depth.reasons.acqFault, s.depth.reasons.overfeed]),
      (1, mark s.depth.feedHold)] := by
  have depth : reportedDepth s.depthNow = s.depth.count * s.geometry.encoderStep / 1000 :=
    Int.fdiv_eq_ediv_of_nonneg _ (by decide)
  simp [depthSection, laid, depth, HoldReasons.bits, bitSet_eq, mark_eq]

theorem tableSection_eq {s : State} (h : TableLaw s) : tableSection s = laid
    ([(2, (s.table.records.length : Int)), (1, mark s.table.walker.isSome), (2, indexValue (s.table.walker.map (·.cursor))),
      (2, (s.table.records.filter (·.stale)).length), (2, indexValue s.table.reference),
      (1, mark (s.table.records.any fun q => decide (s.table.reference = some q.index) && !q.stale))]
      ++ summaryLayout s.table) := by
  rw [laid_append, ← summaryField_eq, ← currentReference_isSome h]
  simp [tableSection, laid, indexField_eq, mark_eq]

theorem alignSection_eq (s : State) : alignSection s = laid
    ([(1, s.align.steer.code), (1, s.align.status.code), (1, s.align.cause.code), (2, s.align.diff),
      (1, s.align.demands.af), (1, s.align.demands.ar), (1, s.align.demands.bf), (1, s.align.demands.br)]
      ++ stageLayout s.align.stage) := by
  cases h : s.align.stage <;> simp [alignSection, laid, h, stageLayout, stageField, bit]

theorem wheelSection_eq (ms : Nat) (d : WheelDrive) : wheelSection ms d = laid (wheelLayout ms d) := by
  have age (k : Nat) : stallAge ms d.stalls k = match d.stalls[k]? with
      | some e => ((ms - e : Nat) : Int)
      | none => 0 := by
    unfold stallAge; cases d.stalls[k]? <;> rfl
  simp [wheelSection, motorField, laid, wheelLayout, age, mark_eq] <;> rfl

theorem pumpSection_eq (d : PumpDrive) : pumpSection d = laid [(1, d.state.code), (1, 0), (1, 0), (2, d.motor.target),
    (2, d.motor.working), (2, d.motor.applied), (2, d.motor.speed)] := by
  simp [pumpSection, motorField, laid, Dir.code, DirStatus.code]

theorem plateSection_eq (s : State) (p : Plate) : plateSection s p = laid (plateLayout s.leftMs p) := by
  simp [plateSection, laid, plateLayout, bitSet_eq]

theorem overrideSection_eq (o : Override) : overrideSection o = laid
    [(1, weights [o.panel, o.lift, o.blocked, false, false, false, false, o.panel || o.lift || o.blocked])] := by
  simp [overrideSection, laid, Override.active, bitSet_eq]

theorem returnSection_eq (s : State) : returnSection s = laid
    [(1, s.ret.state.code), (4, s.ret.backlog), (1, weights [s.ret.report.isSome, s.ret.fresh]),
      (2, (s.ret.report.getD { flow := 0, returnDensity := 0, supplyDensity := 0 }).flow),
      (2, (s.ret.report.getD { flow := 0, returnDensity := 0, supplyDensity := 0 }).returnDensity),
      (2, (s.ret.report.getD { flow := 0, returnDensity := 0, supplyDensity := 0 }).supplyDensity),
      (2, s.leftMs s.ret.staleTimer), (4, s.ret.capacity), (2, s.ret.allowance), (2, s.ret.limit),
      (2, s.leftMs s.ret.confirm), (2, s.leftMs s.ret.recovery)] := by
  simp [returnSection, laid, bitSet_eq]

/-- A link's section while the request of the link `taken` is being answered. -/
theorem linkSection_taken {s : State} {taken : Link} (h : (s.link taken).rx ≠ []) (l : Link) :
    linkSection (takeHead taken s) l = laid (linkLayout s taken l) := by
  have head : ((takeHead taken s).link l).rx.length = ((s.link l).rx.length : Int) - if l = taken then 1 else 0 := by
    have taken_rx : (takeHead taken s).link l
        = if l = taken then { s.link taken with rx := (s.link taken).rx.tail } else s.link l := by
      cases taken <;> cases l <;> rfl
    rw [taken_rx]
    split
    · rename_i e
      have := List.length_pos_of_ne_nil h
      rw [e, List.length_tail]
      omega
    · simp
  have silent : ((takeHead taken s).link l).silent = (s.link l).silent := by cases taken <;> cases l <;> rfl
  have replies : ((takeHead taken s).link l).replies = (s.link l).replies := by cases taken <;> cases l <;> rfl
  simp [linkSection, laid, linkLayout, head, silent, replies, mark_eq]

/-- The whole payload of READ STATUS. -/
theorem statusField_taken {s : State} (h : TableLaw s) {l : Link} (hl : (s.link l).rx ≠ []) :
    statusField (takeHead l s) = laid (statusLayout s.leftMs l s) := by
  have law : TableLaw (takeHead l s) := by unfold TableLaw; rw [takeHead_table, takeHead_geometry]; exact h
  have left : (takeHead l s).leftMs = s.leftMs := funext (takeHead_leftMs l s)
  unfold statusField
  rw [panelSection_eq, depthSection_eq, tableSection_eq law, alignSection_eq, wheelSection_eq, wheelSection_eq,
    pumpSection_eq, plateSection_eq, plateSection_eq, plateSection_eq, plateSection_eq, overrideSection_eq,
    returnSection_eq, linkSection_taken hl, linkSection_taken hl, linkSection_taken hl]
  simp only [statusLayout, laid_append, takeHead_panel, takeHead_geometry, takeHead_depth, takeHead_table, takeHead_align,
    takeHead_drives, takeHead_plates, takeHead_ret, left, List.append_assoc, State.nowMs, takeHead_clock]
  congr 2
  simp [acquisitionSection, laid, mark_eq]

theorem statusLayout_length (left : Timer → Int) (l : Link) (s : State) :
    (laid (statusLayout left l s)).length = if s.align.stage.isSome then 219 else 192 := by
  rw [laid_length]
  cases h : s.align.stage <;>
    simp [statusLayout, h, stageLayout, summaryLayout, wheelLayout, plateLayout, linkLayout]

/-- Settles O51: section by section, with the request just taken off its queue. -/
theorem readStatusReportsEverySection : Obligations.ReadStatusReportsEverySection := by
  intro s l f law h hp
  have waiting : (s.link l).rx ≠ [] := fun e => by
    have := (grant_some h.2.1).2
    rw [e] at this
    cases this
  refine ⟨s.leftMs, leftMs_timeLeft s, ?_, statusLayout_length _ _ _⟩
  exact serves_unchanged (c := .readStatus) rfl h rfl (by rw [hp, ← statusField_taken law waiting]; rfl)

/-! ## The other readouts -/

theorem field_one (v : Int) : field 1 v = [BitVec.ofInt 8 v] := by simp [field]

/-- The codes of a scan list, padded to sixteen. -/
theorem padded_eq (xs : List Byte) (n : Nat) :
    (xs ++ List.replicate n 0).take n = (List.range n).map fun i => (xs[i]?).getD 0 := by
  refine List.ext_getElem (by simp) fun i h1 h2 => ?_
  have hi : i < n := by simpa using h2
  simp only [List.getElem_take, List.getElem_map, List.getElem_range, List.getElem_append]
  split
  · rename_i inside; simp [inside]
  · rename_i outside; simp [outside]

theorem listField_eq (cs : List Channel) : listField cs = laid (listLayout cs) := by
  have codes : (((List.range 16).map fun i => ((1 : Nat), ((cs[i]?).map fun c => (c.code : Int)).getD 0)).map
      fun x => field x.1 x.2).flatten
      = ((cs.map fun c : Channel => BitVec.ofNat 8 c.code) ++ List.replicate 16 0).take 16 := by
    rw [padded_eq, List.map_map]
    have single (i : Nat) : field 1 (((cs[i]?).map fun c => (c.code : Int)).getD 0)
        = [((cs.map fun c : Channel => BitVec.ofNat 8 c.code)[i]?).getD 0] := by
      rw [field_one, List.getElem?_map]
      cases cs[i]? with
      | none => rfl
      | some c => exact congrArg (fun b => [b]) (BitVec.ofInt_natCast 8 c.code)
    simp only [Function.comp_def, single]
    rw [← List.flatMap_def]
    exact List.map_eq_flatMap.symm
  rw [laid, listLayout, List.map_cons, List.flatten_cons, codes]
  rfl

theorem programmingField_eq (a : Acquisition) : programmingField a = laid (programmingLayout a) := by
  unfold programmingLayout
  simp only [laid_append, ← listField_eq]
  simp [programmingField, laid, mark_eq]

theorem recordField_eq (r : ScanRecord) : recordField r = laid (recordLayout r) := by
  have entries (es : List (Option ScanValue)) : (es.map entryField).flatten = laid ((es.map fun e => match e with
      | none => [(1, 0), (2, 0)]
      | some v => [(1, weights [true, v.saturated]), (2, v.value)]).flatten) := by
    induction es with
    | nil => rfl
    | cons e es ih =>
      rw [List.map_cons, List.flatten_cons, ih, List.map_cons, List.flatten_cons, laid_append]
      congr 1
      cases e <;> simp [entryField, laid, bitSet_eq]
  have head : recordField r = laid [(2, (r.seq : Int)), (1, mark r.valid)] ++ (r.entries.map entryField).flatten := by
    simp [recordField, laid, mark_eq]
  unfold recordLayout
  rw [head, laid_append]
  exact congrArg (laid [(2, (r.seq : Int)), (1, mark r.valid)] ++ ·) (entries r.entries)

theorem demandsField_eq (s : State) : demandsField s = laid (demandsLayout s.leftMs s.demand) := by
  unfold demandsLayout
  rw [laid_append]
  simp [demandsField, laid, bitSet_eq, mark_eq, Function.comp_def]

theorem archiveField_eq (a : Archive) :
    (a.slots.map slotField).flatten ++ engineField a.engine = laid (archiveLayout a) := by
  have slots (xs : List Slot) : (xs.map slotField).flatten = laid ((xs.map fun x => [(1, x.state.code),
      (4, x.panelId.getD 0), (1, ((x.pageCount.getD 0 : Nat) : Int)), (9, (x.readMarks.toNat : Int))]).flatten) := by
    induction xs with
    | nil => rfl
    | cons x xs ih =>
      rw [List.map_cons, List.flatten_cons, ih, List.map_cons, List.flatten_cons, laid_append]
      congr 1
  unfold archiveLayout
  rw [laid_append, slots]
  congr 1
  cases a.engine with
  | idle => rfl
  | _ => simp [engineField, laid, Engine.code]

/-- Settles O52: each readout is its layout, and its request changes nothing. -/
theorem readoutsReportTheirFields : Obligations.ReadoutsReportTheirFields := by
  intro s l f hp
  refine ⟨fun h => ⟨fun none => ?_, fun r some => ?_⟩, fun h => ⟨s.leftMs, leftMs_timeLeft s, ?_⟩, fun h => ?_, fun h => ?_⟩
  · refine serves_unchanged (c := .readSnapshot) rfl h rfl ?_
    rw [hp, ← programmingField_eq]
    simp [rowRule, emptyPayload, readSnapshotBody, none]
  · refine serves_unchanged (c := .readSnapshot) rfl h rfl ?_
    rw [hp, laid_append, ← programmingField_eq, ← recordField_eq]
    simp [rowRule, emptyPayload, readSnapshotBody, some, doneWith]
  · refine serves_unchanged (c := .readDemands) rfl h rfl ?_
    have left : (takeHead l s).leftMs = s.leftMs := funext (takeHead_leftMs l s)
    rw [hp, ← left, ← takeHead_demand s l, ← demandsField_eq]
    rfl
  · refine serves_unchanged (c := .readFlags) rfl h rfl ?_
    have flags : ((takeHead l s).link l).flags = (s.link l).flags := by cases l <;> rfl
    have mask : ((takeHead l s).link l).mask = (s.link l).mask := by cases l <;> rfl
    rw [hp]
    simp [rowRule, emptyPayload, readFlagsBody, flags, mask, doneWith, flagField, laid]
  · refine serves_unchanged (c := .archiveStatus) rfl h rfl ?_
    rw [hp, ← archiveField_eq, ← takeHead_archive s .record]
    rfl

/-! ## READ STATIONS (R72 to R77) -/

theorem entriesPayload_eq (g : Geometry) (first : Nat) (entries : List (List Byte)) : entriesPayload g first entries
    = laid [(2, (first : Int)), (1, entries.length), (4, g.start + first * g.spacing), (2, g.spacing)] ++ entries.flatten := by
  simp [entriesPayload, laid, Geometry.depthOf]

theorem bne_decide (m n : Nat) : (m != n) = decide (m ≠ n) := by
  by_cases h : m = n <;> simp [h]

theorem pendingAnswer_eq (first count range : Nat) :
    pendingAnswer { first := first, count := count, range := range } =
      { outcome := .pending, truncated := decide (range ≠ count), payload := laid [(2, first), (1, range)] } := by
  simp [pendingAnswer, laid, bne_decide]

/-- READ STATIONS with its three bytes. -/
theorem readStationsBody_eq (l : Link) (a b c : Byte) (s : State) : readStationsBody l [a, b, c] s =
    if c.toNat = 0 ∨ 16 < c.toNat then (s, refusal .badValue)
    else stationsOf l (a.toNat * 256 + b.toNat) c.toNat s := by
  have first : (unsignedAt [a, b, c] 0 2).toNat = a.toNat * 256 + b.toNat := by
    have value : unsignedAt [a, b, c] 0 2 = ((a.toNat * 256 + b.toNat : Nat) : Int) := by
      simp [unsignedAt, slice, unsignedOf]
    rw [value, Int.toNat_natCast]
  have count : (unsignedAt [a, b, c] 2 1).toNat = c.toNat := unsignedAt_byte rfl
  simp only [readStationsBody, first, count]

/-- The evaluation of a range (R72 checks 4 to 7) on a table `t` that differs from the present one in the link's own
hold at most. -/
theorem evaluateStations_serves {s : State} {t : StationTable} {l : Link} {f : Frame} {first count : Nat}
    (h : Granted 0x42 l f s) (records : t.records = s.table.records)
    (holds : ∀ x, t.setHold l x = s.table.setHold l x)
    (row : rowRule .readStations l f.payload (takeHead l s)
      = evaluateStations l first count { s with table := t, links := (takeHead l s).links }) :
    let u : State := { s with table := t }
    let range := min count (16 - first % 16)
    let settledRange : Prop := ∀ r ∈ s.table.records, first ≤ r.index → r.index < first + range →
      r.state = .settled ∧ r.stale = false
    (s.panel = .idle → Serves .readStations l f { outcome := .noData } [] s u)
    ∧ (s.panel ≠ .idle → s.geometry.stations < first + count →
        Serves .readStations l f { outcome := .refused, reason := .badValue } [] s u)
    ∧ (s.panel ≠ .idle → first + count ≤ s.geometry.stations → settledRange → Serves .readStations l f
        { outcome := .done, truncated := decide (range ≠ count)
          payload := laid [(2, (first : Int)), (1, range), (4, s.geometry.start + first * s.geometry.spacing),
            (2, s.geometry.spacing)] ++ ((List.range range).map fun i => stationEntry s.table.records (first + i)).flatten }
        [] s u)
    ∧ (s.panel ≠ .idle → first + count ≤ s.geometry.stations → ¬settledRange →
        Serves .readStations l f
          { outcome := .pending, truncated := decide (range ≠ count), payload := laid [(2, first), (1, range)] } [] s
          { s with table := s.table.setHold l (.waiting { first := first, count := count, range := range }) }) := by
  intro u range settledRange
  have ready := rangeReady_iff s.table.records { first := first, count := count, range := range }
  simp only [evaluateStations, records, truncated, holds] at row
  refine ⟨fun idle => ?_, fun shut beyond => ?_, fun shut inside settled => ?_, fun shut inside unsettled => ?_⟩
  · exact serves_quietly (c := .readStations) rfl h rfl (by rw [row, if_pos idle])
  · exact serves_quietly (c := .readStations) rfl h rfl (by rw [row, if_neg shut, if_pos beyond]; rfl)
  · refine serves_quietly (c := .readStations) rfl h rfl ?_
    rw [row, if_neg shut, if_neg (not_lt.mpr inside), if_pos (ready.mpr settled), entriesPayload_eq]
    simp [stationEntries, range, bne_decide, u]
  · refine serves_quietly (c := .readStations) rfl h rfl ?_
    rw [row, if_neg shut, if_neg (not_lt.mpr inside), if_neg (mt ready.mp unsettled), pendingAnswer_eq]

/-- Settles O53: by the count, and then by the link's hold. -/
theorem readStationsAnswersOrHolds : Obligations.ReadStationsAnswersOrHolds := by
  intro s l f a b c h hp first count range freed pending head settledRange evaluates
  have row : rowRule .readStations l f.payload (takeHead l s) = readStationsBody l [a, b, c] (takeHead l s) := by
    rw [hp]; exact payloadOf_length rfl _ _ _
  rw [readStationsBody_eq] at row
  refine ⟨fun bad => refuses_of_rule (c := .readStations) rfl h rfl (by rw [row, if_pos bad]), fun low high => ?_⟩
  rw [if_neg (by omega)] at row
  have taken : takeHead l s = { s with links := (takeHead l s).links } := takeHead_eq l s
  unfold stationsOf at row
  simp only [takeHead_table] at row
  refine ⟨fun free => ?_, fun q waiting => ⟨fun same => ?_, fun other => ?_⟩,
    fun q buffer prepared => ⟨fun same => ?_, fun other => ?_⟩, fun i n cancelled => ⟨fun e1 e2 => ?_, fun other => ?_⟩⟩
  · rw [free] at row
    exact evaluateStations_serves (t := s.table) h rfl (fun _ => rfl) (row.trans (by rw [← takeHead_eq]))
  · subst same
    rw [waiting] at row
    exact serves_unchanged (c := .readStations) rfl h rfl 
      (row.trans ((if_pos ⟨rfl, rfl⟩).trans (congrArg (takeHead l s, ·) (pendingAnswer_eq first count range))))
  · rw [waiting] at row
    refine refuses_of_rule (c := .readStations) rfl h rfl (row.trans (if_neg fun g => ?_))
    exact other.elim (fun e => e g.1) fun e => e g.2
  · subst same
    rw [prepared] at row
    refine serves_quietly (c := .readStations) rfl h rfl (row.trans ((if_pos ⟨rfl, rfl⟩).trans ?_))
    rw [entriesPayload_eq, bne_decide, takeHead_geometry, taken]
  · rw [prepared] at row
    refine refuses_of_rule (c := .readStations) rfl h rfl (row.trans (if_neg fun g => ?_))
    exact other.elim (fun e => e g.1) fun e => e g.2
  · rw [cancelled] at row
    refine serves_quietly (c := .readStations) rfl h rfl (row.trans ((if_pos ⟨e1, e2⟩).trans ?_))
    rw [taken]
  · rw [cancelled] at row
    refine evaluateStations_serves (t := s.table.setHold l .free) h (by cases l <;> rfl) (fun x => by cases l <;> rfl)
      (row.trans ((if_neg fun g => ?_).trans ?_))
    · exact other.elim (fun e => e g.1) fun e => e g.2
    · rw [taken]

end Sys2Proof.Machine
end

section
/-! The Demand Table's commands (chapter 9): the group writes (R154, R155), the wheel demand life (R157) and the PUMP
group's ownership (R158 to R160). -/

namespace Sys2Proof.Machine

open Sys2Proof.Safety

/-- What telling the feed governor does, as one record. -/
theorem govern_eq (g : HoldReasons → HoldReasons) (s : State) : govern g s =
    { s with
      depth := Governed s.depth (g s.depth.reasons)
      links := raisedLinks (if s.depth.feedHold = (Governed s.depth (g s.depth.reasons)).feedHold then 0
        else Flag.feedHold.only) s.links } := by
  rw [← govern_links]
  exact (govern_spec g s).1

theorem raise_eq (f : Flag) (s : State) : raise f s = { s with links := raisedLinks f.only s.links } := rfl

/-! ## The checks of a group write (R154) -/

theorem clampEntry_snd {range : Nat → Int × Int} (hr : ∀ n, (range n).1 ≤ (range n).2) (e : Entry) :
    (clampEntry range e).2 = e.2 ↔ (range e.1).1 ≤ e.2 ∧ e.2 ≤ (range e.1).2 := by
  have mem := clamp_mem (hr e.1) e.2
  refine ⟨fun h => ?_, fun ⟨low, high⟩ => clamp_id low high⟩
  change clamp _ _ _ = _ at h
  rwa [h] at mem

/-- The CLAMPED mark: the stored entries differ from those sent. -/
theorem clamped_iff {range : Nat → Int × Int} (hr : ∀ n, (range n).1 ≤ (range n).2) (es : List Entry) :
    (es.map (clampEntry range) != es) = anyClamped range es := by
  unfold anyClamped
  induction es with
  | nil => rfl
  | cons e es ih =>
    have head : (clampEntry range e == e) = !(decide (e.2 < (range e.1).1) || decide ((range e.1).2 < e.2)) := by
      rw [Bool.eq_iff_iff]
      simp only [beq_iff_eq, Bool.not_or, Bool.and_eq_true, Bool.not_eq_true', decide_eq_false_iff_not, not_lt]
      rw [← clampEntry_snd hr]
      exact ⟨fun h => by rw [h], fun h => Prod.ext rfl h⟩
    rw [List.any_cons, ← ih, List.map_cons, bne, bne, List.cons_beq_cons, head]
    simp

/-- A group write with good entries is served with what the block makes of them. -/
theorem writeGroup_ok {fields : Nat} (hf : fields < 256) {es : List (Nat × Int)} (h : EntriesOk fields es)
    {ok : Entry → Bool} (all : es.all ok = true) {range : Nat → Int × Int} (hr : ∀ n, (range n).1 ≤ (range n).2)
    (accept : List Entry → State → State) (s : State) : writeGroup fields ok range accept (groupPayload es) s
      = (accept (es.map (clampEntry range)) s, { outcome := .done, clamped := anyClamped range es }) := by
  simp only [writeGroup, groupEntries_payload hf h ok, if_pos all, clamped_iff hr]

theorem writeGroup_error {fields : Nat} {ok : Entry → Bool} {range : Nat → Int × Int} {p : List Byte} {r : Reason}
    (h : groupEntries fields ok p = .error r) (accept : List Entry → State → State) (s : State) :
    writeGroup fields ok range accept p s = (s, refusal r) := by
  simp only [writeGroup, h]

/-! ## SET WHEEL, KEEP WHEEL and the life (R155 to R157, R95) -/

theorem renewWheel_eq (s : State) : renewWheel s =
    { s with
      demand := { s.demand with life := some (s.clock + 2000000), expired := false }
      depth := Governed s.depth { s.depth.reasons with wheel := false }
      links := raisedLinks (if s.depth.feedHold = (Governed s.depth { s.depth.reasons with wheel := false }).feedHold
        then 0 else Flag.feedHold.only) s.links } := by
  unfold renewWheel setExpired
  rw [govern_eq]
  rfl

theorem expireWheel_eq (s : State) : expireWheel s =
    { s with
      demand := { s.demand with life := none, expired := true }
      depth := Governed s.depth { s.depth.reasons with wheel := true }
      links := raisedLinks (if s.depth.feedHold = (Governed s.depth { s.depth.reasons with wheel := true }).feedHold
        then 0 else Flag.feedHold.only) (raisedLinks Flag.wheelExpired.only s.links) } := by
  unfold expireWheel setExpired
  rw [govern_eq]
  rfl

/-- The codes of the WHEEL group name a direction and a steer mode. -/
theorem wheelEntryOk_iff (e : Entry) : wheelEntryOk e = true ↔ (e.1 = 2 ∨ e.1 = 3 → e.2 = 0 ∨ e.2 = 1) := by
  have dir (v : Int) : (dirOf v).isSome = true ↔ v = 0 ∨ v = 1 := by unfold dirOf; grind
  have steer (v : Int) : (steerOf v).isSome = true ↔ v = 0 ∨ v = 1 := by unfold steerOf; grind
  unfold wheelEntryOk
  split
  · rename_i h; rw [dir]; simp [h]
  · rename_i h; rw [steer]; simp [h]
  · rename_i h2 h3; exact iff_of_true rfl fun g => absurd g (by rintro (e | e); exacts [h2 e, h3 e])

theorem wheel_stored {dMax : Int} (h : 0 ≤ dMax) {es : List (Nat × Int)} (ok : EntriesOk 10 es) (g : WheelGroup) :
    Stored (wheelRange dMax) es g.values
      (writeAll WheelGroup.write g (es.map (clampEntry (wheelRange dMax)))).values := by
  obtain ⟨-, -, nodup, fields⟩ := ok
  exact writeAll_stored (ok := fun e => (wheelRange dMax e.1).1 ≤ e.2 ∧ e.2 ≤ (wheelRange dMax e.1).2)
    (wheelRange_ordered h) (fun g e low high inside => wheel_write_inRange dMax g e.1 e.2 low high inside.1 inside.2)
    (fun _ => rfl) es g nodup fun e he =>
      ⟨(fields e he).1, (fields e he).2.1, clamp_mem (wheelRange_ordered h e.1) e.2⟩

/-- A group write's stored values, for the groups without codes. -/
theorem group_stored {G : Type} {write : G → Nat → Int → G} {values : G → List Int} {range : Nat → Int × Int}
    {fields : Nat} (hr : ∀ n, (range n).1 ≤ (range n).2)
    (hw : ∀ (g : G) {n : Nat}, 1 ≤ n → n ≤ fields → ∀ v, values (write g n v) = (values g).set (n - 1) v)
    (hl : ∀ g, (values g).length = fields) {es : List (Nat × Int)} (ok : EntriesOk fields es) (g : G) :
    Stored range es (values g) (values (writeAll write g (es.map (clampEntry range)))) := by
  obtain ⟨-, -, nodup, inside⟩ := ok
  exact writeAll_stored (ok := fun _ => True) hr (fun g e low high _ => hw g low high e.2) hl es g nodup
    fun e he => ⟨(inside e he).1, (inside e he).2.1, trivial⟩

/-- Settles O34: the write's good entries, the renewal, and the expiry, each telling the feed governor. -/
theorem wheelDemandIsStoredRenewedAndExpires : Obligations.WheelDemandIsStoredRenewedAndExpires := by
  refine ⟨fun s f es h hp ok codes dMax => ?_, fun s f h hp => ?_, fun s due hs hd => ?_⟩
  · have all : es.all wheelEntryOk = true := List.all_eq_true.mpr fun e he => (wheelEntryOk_iff e).mpr (codes e he)
    have row : rowRule .setWheel .cab f.payload (takeHead .cab s)
        = (acceptWheel (es.map (clampEntry (wheelRange s.demand.tuning.dMax))) (takeHead .cab s),
          { outcome := .done, clamped := anyClamped (wheelRange s.demand.tuning.dMax) es }) := by
      rw [hp, ← takeHead_demand s .cab]
      exact writeGroup_ok (by decide) ok all (wheelRange_ordered (by rw [takeHead_demand]; exact dMax)) _ _
    unfold acceptWheel at row
    rw [renewWheel_eq] at row
    refine completes_of_rule (c := .setWheel)
      (fs := if s.depth.feedHold = (Governed s.depth { s.depth.reasons with wheel := false }).feedHold then [] else [.feedHold])
      rfl h rfl row ?_ fun t same raised answered => ?_
    · simp only [alignMode, takeHead_depth]
      split <;> simp
    · have wheel : t.demand.wheel
          = writeAll WheelGroup.write s.demand.wheel (es.map (clampEntry (wheelRange s.demand.tuning.dMax))) := by
        rw [same]; simp [alignMode]
      have depth : t.depth = Governed s.depth { s.depth.reasons with wheel := false } := by
        rw [same]; simp [alignMode]
      refine ⟨?_, ?_, ?_, answered⟩
      · rw [wheel, same]
        apply state_eq <;> simp [alignMode]
      · rw [wheel]; exact wheel_stored dMax ok _
      · unfold holdChange
        rw [depth]
        exact raised
  · refine serves_of_rule (c := .keepWheel) rfl h rfl ?_
    rw [hp]
    change (renewWheel (takeHead .cab s), doneWith []) = _
    rw [renewWheel_eq, flagsOfList_holdChange]
    refine congrArg (·, doneWith []) ?_
    apply state_eq <;> simp
  · refine happens_of_rule (c := .wheelDemandExpiry) hs hd ?_
    simp only [eventRule]
    rw [expireWheel_eq, flagsOfList_cons, flagsOfList_holdChange, raisedLinks_raisedLinks]
    rfl

/-! ## The other groups (R155, R98) -/

/-- Settles O35: the three writes by their good entries. -/
theorem groupWritesStoreNamedFields : Obligations.GroupWritesStoreNamedFields := by
  intro s l f es hp
  have all : es.all (fun _ => true) = true := by simp
  refine ⟨fun h hl ok => ?_, fun h hl ok dMax => ?_, fun h hb ok => ?_⟩
  · subst hl
    have row : rowRule .setFeed .cab f.payload (takeHead .cab s) = (acceptFeed (es.map (clampEntry feedRange)) (takeHead .cab s),
        { outcome := .done, clamped := anyClamped feedRange es }) := by
      rw [hp]; exact writeGroup_ok (by decide) ok all feedRange_ordered acceptFeed (takeHead .cab s)
    refine completes_of_rule (c := .setFeed) (fs := []) rfl h rfl row (by simp [acceptFeed]) fun t same raised answered => ?_
    have feed : t.demand.feed = writeAll FeedGroup.write s.demand.feed (es.map (clampEntry feedRange)) := by
      rw [same]; simp [acceptFeed]
    refine ⟨?_, ?_, raised, answered⟩
    · rw [feed, same]
      apply state_eq <;> simp [acceptFeed]
    · rw [feed]
      exact group_stored feedRange_ordered (fun g => feed_write_values g) (fun _ => rfl) ok _
  · subst hl
    have row : rowRule .setTuning .cab f.payload (takeHead .cab s) = (acceptTuning (es.map (clampEntry tuningRange)) (takeHead .cab s),
        { outcome := .done, clamped := anyClamped tuningRange es }) := by
      rw [hp]; exact writeGroup_ok (by decide) ok all tuningRange_ordered acceptTuning (takeHead .cab s)
    refine completes_of_rule (c := .setTuning) (fs := []) rfl h rfl row (by simp [acceptTuning, alignTuning])
      fun t same raised answered => ?_
    have tuning : t.demand.tuning = writeAll TuningGroup.write s.demand.tuning (es.map (clampEntry tuningRange)) := by
      rw [same]; simp [acceptTuning, alignTuning]
    have stored : Stored tuningRange es s.demand.tuning.values t.demand.tuning.values := by
      rw [tuning]
      exact group_stored tuningRange_ordered (fun g => tuning_write_values g) (fun _ => rfl) ok _
    have newMax : 0 ≤ t.demand.tuning.dMax := by
      by_cases named : ∃ v, (5, v) ∈ es
      · obtain ⟨v, hv⟩ := named
        have value : t.demand.tuning.dMax = max 0 (min 100 v) := Option.some.inj ((stored.2 4).1 v hv)
        omega
      · have value : t.demand.tuning.dMax = s.demand.tuning.dMax :=
          Option.some.inj ((stored.2 4).2 fun v hv => named ⟨v, hv⟩)
        omega
    refine ⟨?_, stored, raised, answered⟩
    have diff : clampDiff t.demand.tuning s.align.diff = max (-t.demand.tuning.dMax) (min t.demand.tuning.dMax s.align.diff) :=
      clamp_eq (by omega) _
    rw [← diff, tuning, same]
    apply state_eq <;> simp [acceptTuning, alignTuning]
  · have row : rowRule .setPump l f.payload (takeHead l s) = (acceptPump (es.map (clampEntry pumpRange)) (takeHead l s),
        { outcome := .done, clamped := anyClamped pumpRange es }) := by
      rw [hp]; exact writeGroup_ok (by decide) ok all pumpRange_ordered acceptPump (takeHead l s)
    refine completes_of_rule (c := .setPump) (fs := []) rfl h hb row (by simp [acceptPump]) fun t same raised answered => ?_
    have pump : t.demand.pump = writeAll PumpGroup.write s.demand.pump (es.map (clampEntry pumpRange)) := by
      rw [same]; simp [acceptPump]
    refine ⟨?_, ?_, raised, answered⟩
    · rw [pump, same]
      apply state_eq <;> simp [acceptPump]
    · rw [pump]
      exact group_stored pumpRange_ordered (fun g => pump_write_values g) (fun _ => rfl) ok _

/-! ## Refused group writes (R154) -/

/-- The field numbers of the entries of a write. -/
theorem entriesOf_numbers (k : Nat) (q : List Byte) :
    (entriesOf k q).map (·.1) = (List.range k).map fun i => (q.getD (5 * i) 0).toNat := by
  induction k generalizing q with
  | zero => rfl
  | succ k ih =>
    rw [entriesOf, List.map_cons, ih, List.range_succ_eq_map, List.map_cons, List.map_map]
    congr 1
    · cases q <;> rfl
    · refine List.map_congr_left fun i _ => ?_
      simp only [Function.comp_apply, List.getD_eq_getElem?_getD, List.getElem?_drop]
      rw [show 5 + 5 * i = 5 * i.succ by omega]

theorem groupEntries_badLength {n : Nat} {ok : Entry → Bool} {p : List Byte}
    (h : p.length ≠ 1 + 5 * (p.headD 0).toNat) : groupEntries n ok p = .error .badLength := by
  unfold groupEntries
  exact if_pos (.inr h)

theorem groupEntries_badValue {n : Nat} {ok : Entry → Bool} {p : List Byte}
    (hl : p.length = 1 + 5 * (p.headD 0).toNat)
    (bad : (p.headD 0).toNat = 0 ∨ n < (p.headD 0).toNat
      ∨ (∃ m ∈ (List.range (p.headD 0).toNat).map fun i => (p.getD (1 + 5 * i) 0).toNat, m = 0 ∨ n < m)
      ∨ ¬((List.range (p.headD 0).toNat).map fun i => (p.getD (1 + 5 * i) 0).toNat).Nodup) :
    groupEntries n ok p = .error .badValue := by
  have present : ¬(p.isEmpty = true ∨ p.length ≠ 1 + 5 * (p.headD 0).toNat) := by
    rintro (e | e)
    · rw [List.isEmpty_iff.mp e] at hl; simp at hl
    · exact e hl
  have numbers : (entriesOf (p.headD 0).toNat (p.drop 1)).map (·.1)
      = (List.range (p.headD 0).toNat).map fun i => (p.getD (1 + 5 * i) 0).toNat := by
    rw [entriesOf_numbers]
    refine List.map_congr_left fun i _ => ?_
    simp only [List.getD_eq_getElem?_getD, List.getElem?_drop]
  rw [← numbers] at bad
  unfold groupEntries
  dsimp only
  rw [if_neg present]
  split
  · rfl
  · rename_i few
    obtain ⟨some, notMany⟩ := not_or.mp few
    split
    · rfl
    · rename_i good
      obtain ⟨named, once⟩ := not_or.mp good
      rcases bad with g | g | ⟨m, hm, g⟩ | g
      · exact absurd g some
      · exact absurd g notMany
      · obtain ⟨e, he, rfl⟩ := List.mem_map.mp hm
        exact absurd (List.any_eq_true.mpr ⟨e, he, by simpa using g⟩) named
      · exact absurd g once

/-- The four group writes by their rule. -/
theorem groupWrite_row {c : Instr} {n : Nat} (h : groupFields c = some n) (l : Link) (p : List Byte) (s : State) {r : Reason}
    (bad : ∀ ok, groupEntries n ok p = .error r) : rowRule c l p s = (s, refusal r) := by
  cases c with
  | setWheel | setFeed | setTuning | setPump => cases h; exact writeGroup_error (bad _) _ _
  | _ => cases h

/-- Settles O36: the checks of a write in order. -/
theorem badGroupWritesAreRefused : Obligations.BadGroupWritesAreRefused := by
  intro c kind acc n s l f row fields h hb k numbers
  refine ⟨fun length => ?_, fun length bad => ?_, fun es hc hp ok code => ?_⟩
  · exact refuses_of_rule row h hb (groupWrite_row fields l _ _ fun _ => groupEntries_badLength length)
  · exact refuses_of_rule row h hb (groupWrite_row fields l _ _ fun _ => groupEntries_badValue length bad)
  · subst hc
    refine refuses_of_rule row h hb ?_
    obtain ⟨e, he, named, h0, h1⟩ := code
    have wrong : ¬es.all wheelEntryOk = true := fun g =>
      ((wheelEntryOk_iff e).mp (List.all_eq_true.mp g e he) named).elim h0 h1
    rw [hp]
    exact writeGroup_error (by rw [groupEntries_payload (by decide) ok, if_neg wrong]) _ _

/-! ## Ownership of the PUMP group (R158 to R160) -/

theorem plantOnly_barred (o : Owner) {l : Link} (h : l ≠ .plant) : barred o l .plantOnly = some .notPermitted := if_neg h

theorem cabOnly_barred (o : Owner) {l : Link} (h : l ≠ .cab) : barred o l .cabOnly = some .notPermitted := if_neg h

/-- The silence of another link does not depend on the request taken. -/
theorem takeHead_silent (s : State) (l k : Link) : ((takeHead l s).link k).silent = (s.link k).silent := by
  cases l <;> cases k <;> rfl

/-- Settles O37: by the owner, its mark and the silence of its link. -/
theorem pumpGroupChangesHands : Obligations.PumpGroupChangesHands := by
  intro s l f cleared
  refine ⟨fun h => ⟨fun hl => ?_, fun hl hp => ?_, fun hl hp => ⟨fun own => ?_, fun other free => ?_, fun other kept here => ?_⟩⟩,
    fun h => ⟨fun hl => ?_, fun hl hp => ?_, fun hl hp => ⟨fun own => ?_, fun other free => ?_, fun other kept here => ?_⟩⟩,
    fun h hb hp => ?_⟩
  · exact refuses_of_barred (exec_row (c := .takePump) rfl s) h (cabOnly_barred _ hl)
  · subst hl
    exact refuses_of_rule (c := .takePump) rfl h rfl (emptyPayload_of_ne hp _ _ _)
  · subst hl
    refine serves_quietly (c := .takePump) rfl h rfl ?_
    rw [hp]
    change takePumpBody .cab (takeHead .cab s) = _
    simp only [takePumpBody, takeHead_demand, own]
    rfl
  · subst hl
    refine serves_of_rule (c := .takePump) rfl h rfl ?_
    have silent : (takeHead .cab s).links.plant.silent = s.links.plant.silent := takeHead_silent s .cab .plant
    rw [hp]
    change takePumpBody .cab (takeHead .cab s) = _
    simp only [takePumpBody, takeHead_demand, other, silent, if_pos free, transferPump, raise_eq]
    simp [cleared, doneWith]
  · subst hl
    refine refuses_of_rule (c := .takePump) rfl h rfl ?_
    have silent : (takeHead .cab s).links.plant.silent = s.links.plant.silent := takeHead_silent s .cab .plant
    rw [hp]
    change takePumpBody .cab (takeHead .cab s) = _
    simp [takePumpBody, takeHead_demand, other, silent, kept, here]
  · exact refuses_of_barred (exec_row (c := .reclaimPump) rfl s) h (plantOnly_barred _ hl)
  · subst hl
    exact refuses_of_rule (c := .reclaimPump) rfl h rfl (emptyPayload_of_ne hp _ _ _)
  · subst hl
    refine serves_quietly (c := .reclaimPump) rfl h rfl ?_
    rw [hp]
    change reclaimPumpBody .plant (takeHead .plant s) = _
    simp only [reclaimPumpBody, takeHead_demand, own]
    rfl
  · subst hl
    refine serves_of_rule (c := .reclaimPump) rfl h rfl ?_
    have silent : (takeHead .plant s).links.cab.silent = s.links.cab.silent := takeHead_silent s .plant .cab
    rw [hp]
    change reclaimPumpBody .plant (takeHead .plant s) = _
    simp only [reclaimPumpBody, takeHead_demand, other, silent, if_pos free, transferPump, raise_eq]
    simp [cleared, doneWith]
  · subst hl
    refine refuses_of_rule (c := .reclaimPump) rfl h rfl ?_
    have silent : (takeHead .plant s).links.cab.silent = s.links.cab.silent := takeHead_silent s .plant .cab
    rw [hp]
    change reclaimPumpBody .plant (takeHead .plant s) = _
    simp [reclaimPumpBody, takeHead_demand, other, silent, kept, here]
  · refine serves_quietly (c := .releasePump) rfl h hb ?_
    rw [hp]
    change releasePumpBody l (takeHead l s) = _
    cases own : s.demand.owner with
    | plant =>
      simp only [releasePumpBody, takeHead_demand, own]
      refine congrArg (·, doneWith []) ?_
      apply state_eq <;> simp
    | cab =>
      simp only [releasePumpBody, takeHead_demand, own]
      refine congrArg (·, doneWith []) ?_
      apply state_eq <;> simp

end Sys2Proof.Machine
end

section
/-! The Acquisition Unit's commands: SET ACQUISITION (R22 to R24), the scan timer (R25) and the conversions (R17 to
R21). -/

namespace Sys2Proof.Machine

open Sys2Proof.Safety

/-! ## The unit's moves (R23, R26 to R28) -/

theorem toOff_eq (s : State) : toOff s =
    { s with
      acq := { s.acq with state := .off, conversion := none, results := [], scanTimer := none }
      depth := Governed s.depth { s.depth.reasons with acqOff := true }
      links := raisedLinks (if s.depth.feedHold = (Governed s.depth { s.depth.reasons with acqOff := true }).feedHold
        then 0 else Flag.feedHold.only) s.links } := by
  unfold toOff
  rw [govern_eq]
  rfl

/-- The depth counter at the completion of a scan: a pending OFF holds the feed (R27). -/
def endedDepth (s : State) : DepthCounter :=
  if s.acq.pendingMode = .off then Governed s.depth { s.depth.reasons with acqOff := true } else s.depth

/-- How the unit goes on at the completion of a scan (R23, R26). -/
theorem afterScan_eq (s : State) : afterScan s =
    { s with
      acq := nextScan s.clock s.acq
      depth := endedDepth s
      links := raisedLinks (if s.depth.feedHold = (endedDepth s).feedHold then 0 else Flag.feedHold.only) s.links } := by
  unfold afterScan nextScan endedDepth
  by_cases off : s.acq.pendingMode = .off
  · simp only [if_pos off]
    rw [toOff_eq]
    rfl
  · simp only [if_neg off]
    cases active : s.acq.activeMode with
    | free =>
      cases next : s.acq.pendingMode with
      | timed =>
        apply state_eq <;> simp [adopt, loadScanTimer, toWaiting, State.setAcq, next, State.inMs]
      | free =>
        apply state_eq <;> simp [adopt, startScan, State.setAcq, next, State.inMs]
      | off => exact absurd next off
    | timed => apply state_eq <;> simp [toWaiting, State.setAcq, active]
    | off => apply state_eq <;> simp [toWaiting, State.setAcq, active]

/-! ## The scan timer (R23 to R25) -/

/-- Settles O39: by the unit's state and, in WAITING, the pending mode. -/
theorem scanTimerStartsAScan : Obligations.ScanTimerStartsAScan := by
  intro s due hs hd at_ loaded adopted now
  refine ⟨fun busy => ?_, fun waiting mode => ?_, fun waiting mode => ?_⟩
  · refine happens_of_rule (c := .scanTimerExpiry) hs hd ?_
    have overrun : scanExpiry (s.reach due) = raise .scanOverrun (reloadScanTimer (s.reach due)) := by
      rcases busy with e | e <;> simp [scanExpiry, reloadScanTimer, State.setAcq, e]
    simp only [eventRule]
    rw [overrun, raise_eq]
    apply state_eq <;> simp [reloadScanTimer, State.setAcq, hd, now, loaded, at_, State.inMs]
  · refine happens_of_rule (c := .scanTimerExpiry) hs hd ?_
    have started : scanExpiry (s.reach due) = startAtExpiry (reloadScanTimer (s.reach due)) := by
      simp [scanExpiry, reloadScanTimer, State.setAcq, waiting]
    simp only [eventRule]
    rw [started]
    cases next : s.acq.pendingMode with
    | timed =>
      apply state_eq <;> simp [startAtExpiry, adopt, reloadScanTimer, startScan, State.setAcq, next, hd, now, loaded, adopted,
        at_, State.inMs]
    | free =>
      apply state_eq <;> simp [startAtExpiry, adopt, reloadScanTimer, startScan, stopScanTimer, State.setAcq, next, hd, now,
        loaded, adopted, at_, State.inMs]
    | off => exact absurd next mode
  · intro u
    refine happens_of_rule (c := .scanTimerExpiry) hs hd ?_
    have stopped : scanExpiry (s.reach due) = toOff (adopt (reloadScanTimer (s.reach due))) := by
      simp [scanExpiry, startAtExpiry, adopt, reloadScanTimer, State.setAcq, waiting, mode]
    simp only [eventRule]
    rw [stopped, toOff_eq, flagsOfList_holdChange]
    rfl

/-! ## Conversions (R17 to R21) -/

/-- The result of a conversion as R17 and R21 say it. -/
theorem convert_eq (z : Int) (c : Channel) (raw : Int) :
    let low : Int := if c ∈ [Channel.zr, .ix, .iy, .tw] then -2048 else 0
    let high : Int := if c ∈ [Channel.zr, .ix, .iy, .tw] then 2047 else 4095
    let reading := max low (min high raw)
    let corrected := if c ∈ [Channel.ix, .iy, .tw] then max low (min high (reading - z)) else reading
    convert z c raw = { value := corrected
                        saturated := decide (reading = low ∨ reading = high ∨ corrected = low ∨ corrected = high) } := by
  have bipolar (x : Int) : clamp (-2048) 2047 x = max (-2048) (min 2047 x) := clamp_eq (by decide) x
  have unipolar (x : Int) : clamp 0 4095 x = max 0 (min 4095 x) := clamp_eq (by decide) x
  cases c <;>
    simp [convert, Channel.low, Channel.high, Channel.bipolar, Channel.zeroed, Channel.atLimit, bipolar, unipolar,
      Bool.or_assoc] <;> grind

theorem clamp_zr (raw : Int) : clamp (-2048) 2047 raw = max (-2048) (min 2047 raw) := clamp_eq (by decide) raw

/-- The zero value after a conversion (R20): a ZR reading of a published scan within ±64. -/
def zeroGained (raw : Int) (c : Channel) (s : State) : Int :=
  if (c = .zr ∧ s.acq.state = .scanning) ∧ |clamp (-2048) 2047 raw| ≤ 64 then clamp (-2048) 2047 raw else s.acq.zero

/-- The flag of a ZR reading of a published scan beyond ±64 (R20). -/
def zeroFlags (raw : Int) (c : Channel) (s : State) : List Flag :=
  if (c = .zr ∧ s.acq.state = .scanning) ∧ 64 < |clamp (-2048) 2047 raw| then [.sensorFault] else []

theorem zeroChecked_eq (raw : Int) (c : Channel) {s : State} (h : s.acq.state = .scanning ∨ s.acq.state = .settling) :
    zeroChecked raw c s =
    { s with
      acq := { s.acq with zero := zeroGained raw c s }
      links := raisedLinks (flagsOfList (zeroFlags raw c s)) s.links } := by
  have published : s.acq.state ≠ .settling ↔ s.acq.state = .scanning := by
    rcases h with e | e <;> rw [e] <;> decide
  unfold zeroChecked zeroCheck zeroGained zeroFlags
  by_cases checked : c = .zr ∧ s.acq.state = .scanning
  · rw [if_pos ⟨checked.1, published.mpr checked.2⟩]
    dsimp only
    by_cases near : |clamp (-2048) 2047 raw| ≤ 64
    · rw [if_pos near]
      apply state_eq <;> simp [State.setAcq, checked, near, not_lt.mpr near]
    · rw [if_neg near, raise_eq]
      have far : (c = .zr ∧ s.acq.state = .scanning) ∧ 64 < |clamp (-2048) 2047 raw| := ⟨checked, not_le.mp near⟩
      rw [if_neg fun g => near g.2, if_pos far, flagsOfList_cons, flagsOfList_nil]
      rfl
  · rw [if_neg fun g => checked ⟨g.1, published.mp g.2⟩]
    apply state_eq <;> simp [checked]

/-- The zero value is that before a ZR conversion, which is not corrected. -/
theorem convert_zeroGained (raw : Int) (c : Channel) (s : State) :
    convert (zeroGained raw c s) c raw = convert s.acq.zero c raw := by
  unfold zeroGained
  split
  · rename_i g; rw [g.1.1]; rfl
  · rfl

/-- One conversion joins the scan in flight. -/
theorem converted_eq (raw : Int) (c : Channel) {s : State} (h : s.acq.state = .scanning ∨ s.acq.state = .settling) :
    converted raw c s =
    { s with
      acq := { s.acq with
        results := s.acq.results ++ [{ channel := c, result := convert s.acq.zero c raw }]
        conversion := some (s.clock + 2000)
        zero := zeroGained raw c s }
      links := raisedLinks (flagsOfList (zeroFlags raw c s)) s.links } := by
  unfold converted
  rw [zeroChecked_eq raw c h, ← convert_zeroGained]
  rfl

/-- Going on after a scan does not look at the conversions of the one that ended. -/
theorem nextScan_results (now : Nat) (a : Acquisition) (rs : List Conversion) (t : Timer) :
    nextScan now { a with results := rs, conversion := t } = nextScan now a := by
  rfl

/-- Settles O40: one more conversion, or the end of a settling scan. -/
theorem conversionsFillTheScan : Obligations.ConversionsFillTheScan := by
  intro s due c raw hs hd hc inFlight bipolar low high reading checked corrected mark got now
  have result : convert (s.reach due).acq.zero c raw = { value := corrected, saturated := mark } := convert_eq s.acq.zero c raw
  have gained := converted_eq raw c (s := s.reach due) inFlight
  have entry : (s.reach due).acq.activeList[(s.reach due).acq.results.length]? = some c := hc
  have zr (g : checked) : clamp (-2048) 2047 raw = reading := by
    obtain ⟨e, -⟩ := g
    subst e
    exact clamp_zr raw
  refine ⟨fun more => ?_, fun last settling => ?_⟩
  · refine happens_of_rule (c := .conversionCompletion raw) hs hd ?_
    have rest : (converted raw c (s.reach due)).acq.results.length < (converted raw c (s.reach due)).acq.activeList.length := by
      rw [gained]; simpa using more
    simp only [eventRule]
    rw [conversionDone_of_entry entry, if_pos rest, gained]
    have flags : zeroFlags raw c (s.reach due) = if checked ∧ 64 < |reading| then [.sensorFault] else [] :=
      if_congr (and_congr_right fun g => by rw [zr g]) rfl rfl
    have zero : zeroGained raw c (s.reach due) = if checked ∧ |reading| ≤ 64 then reading else s.acq.zero := by
      by_cases g : checked
      · rw [← zr g]; rfl
      · exact (if_neg fun k => g k.1).trans (if_neg fun k => g k.1).symm
    rw [flags, zero, result]
    rfl
  · intro u
    refine happens_of_rule (c := .conversionCompletion raw) hs hd ?_
    have full : ¬(converted raw c (s.reach due)).acq.results.length < (converted raw c (s.reach due)).acq.activeList.length := by
      rw [gained]; simp [last]
    have plain : ¬s.acq.state = .scanning := by rw [settling]; nofun
    have zero : zeroGained raw c (s.reach due) = s.acq.zero := if_neg fun k => plain k.1.2
    have flags : zeroFlags raw c (s.reach due) = [] := if_neg fun k => plain k.1.2
    have quiet : raisedLinks (flagsOfList []) s.links = s.links := raisedLinks_zero s.links
    rw [zero, flags, show (s.reach due).links = s.links from rfl, quiet] at gained
    have unpublished : (converted raw c (s.reach due)).acq.state = .settling := by rw [gained]; exact settling
    simp only [eventRule]
    rw [conversionDone_of_entry entry, if_neg full, scanCompletion, if_pos unpublished, gained, afterScan_eq,
      flagsOfList_holdChange]
    rfl

/-! ## SET ACQUISITION (R22 to R24) -/

theorem channelOf_some {b : Byte} {c : Channel} (h : c.code = b.toNat) : channelOf b = some c := by
  unfold channelOf
  rw [← h]
  cases c <;> rfl

theorem channelOf_none {b : Byte} (h : 12 < b.toNat) : channelOf b = none := by
  unfold channelOf
  exact List.getElem?_eq_none_iff.mpr h

theorem channelsOf_some {list : List Channel} {codes : List Byte} (h : list.map Channel.code = codes.map BitVec.toNat) :
    channelsOf codes = some list := by
  induction codes generalizing list with
  | nil => rw [List.map_eq_nil_iff.mp h]; rfl
  | cons b bs ih =>
    obtain _ | ⟨c, cs⟩ := list
    · exact absurd h (by simp)
    · rw [List.map_cons, List.map_cons, List.cons.injEq] at h
      simp only [channelsOf, channelOf_some h.1, ih h.2]

theorem channelsOf_none {codes : List Byte} (h : ∃ c ∈ codes, 12 < c.toNat) : channelsOf codes = none := by
  induction codes with
  | nil => exact absurd h (by simp)
  | cons b bs ih =>
    obtain ⟨c, mem, high⟩ := h
    rcases List.mem_cons.mp mem with rfl | later
    · simp only [channelsOf, channelOf_none high]
    · simp only [channelsOf, ih ⟨c, later, high⟩]
      cases channelOf b <;> rfl

theorem acqModeOf_some {m : Byte} {mode : AcqMode} (h : mode.code = m.toNat) : acqModeOf m = some mode := by
  cases mode <;> simp only [AcqMode.code] at h
  · have e : m = 0 := BitVec.eq_of_toNat_eq (by simpa using h.symm)
    rw [e]; rfl
  · have e : m = 1 := BitVec.eq_of_toNat_eq (by simp; omega)
    rw [e]; rfl
  · have e : m = 2 := BitVec.eq_of_toNat_eq (by simp; omega)
    rw [e]; rfl

theorem acqModeOf_none {m : Byte} (h : 2 < m.toNat) : acqModeOf m = none := by
  unfold acqModeOf
  rw [if_neg (by rintro rfl; exact absurd h (by decide)), if_neg (by rintro rfl; exact absurd h (by decide)),
    if_neg (by rintro rfl; exact absurd h (by decide))]

theorem restartChoiceOf_some {r : Byte} (h : r.toNat ≤ 1) : restartChoiceOf r = some (decide (r = 1)) := by
  have cases_ : r = 0 ∨ r = 1 := by
    rcases Nat.le_one_iff_eq_zero_or_eq_one.mp h with e | e
    · exact .inl (BitVec.eq_of_toNat_eq e)
    · exact .inr (BitVec.eq_of_toNat_eq e)
  rcases cases_ with rfl | rfl <;> rfl

theorem restartChoiceOf_none {r : Byte} (h : 1 < r.toNat) : restartChoiceOf r = none := by
  unfold restartChoiceOf
  rw [if_neg (by rintro rfl; exact absurd h (by decide)), if_neg (by rintro rfl; exact absurd h (by decide))]

/-- The checks of a SET ACQUISITION payload of the right length. -/
theorem acqRequestOf_whole {p : List Byte} {k : Byte} (head : p.headD 0 = k) (length : p.length = 5 + k.toNat) :
    acqRequestOf p =
      if k.toNat = 0 ∨ 16 < k.toNat then .error .badValue
      else match channelsOf (slice p 1 k.toNat) with
        | none => .error .badValue
        | some list =>
          match acqModeOf (p.getD (3 + k.toNat) 0), restartChoiceOf (p.getD (4 + k.toNat) 0) with
          | some mode, some restart =>
            .ok { list := list, period := unsignedAt p (1 + k.toNat) 2, mode := mode, restart := restart }
          | _, _ => .error .badValue := by
  subst head
  exact if_neg (by omega)

/-- The fields of a SET ACQUISITION payload (12.2). -/
theorem acqRequestOf_eq {k p1 p2 m r : Byte} {codes : List Byte} (hk : codes.length = k.toNat) :
    acqRequestOf (k :: codes ++ [p1, p2, m, r]) =
      if k.toNat = 0 ∨ 16 < k.toNat then .error .badValue
      else match channelsOf codes with
        | none => .error .badValue
        | some list =>
          match acqModeOf m, restartChoiceOf r with
          | some mode, some restart => .ok { list := list, period := two p1 p2, mode := mode, restart := restart }
          | _, _ => .error .badValue := by
  have list : slice (k :: codes ++ [p1, p2, m, r]) 1 k.toNat = codes := by
    simp [slice, ← hk]
  have mode : (k :: codes ++ [p1, p2, m, r]).getD (3 + k.toNat) 0 = m := by
    rw [← hk, List.getD_append_right _ _ _ _ (by simp)]
    simp
    rw [show 3 + codes.length - (codes.length + 1) = 2 by omega]
    rfl
  have choice : (k :: codes ++ [p1, p2, m, r]).getD (4 + k.toNat) 0 = r := by
    rw [← hk, List.getD_append_right _ _ _ _ (by simp)]
    simp
    rw [show 4 + codes.length - (codes.length + 1) = 3 by omega]
    rfl
  have period : unsignedAt (k :: codes ++ [p1, p2, m, r]) (1 + k.toNat) 2 = two p1 p2 := by
    have bytes : slice (k :: codes ++ [p1, p2, m, r]) (1 + k.toNat) 2 = [p1, p2] := by
      rw [slice, ← hk, Nat.add_comm, List.drop_left' (by simp)]
      rfl
    rw [unsignedAt, bytes]
    simp [unsignedOf, two]
  rw [acqRequestOf_whole (k := k) rfl (by simp; omega), list, mode, choice, period]

/-- The unit with an accepted list, mode, period and restart choice pending (R22, R24). -/
def pendingAcq (q : AcqRequest) (s : State) : Acquisition :=
  { s.acq with
    pendingList := q.list, pendingMode := q.mode, newPeriod := clamp 10 1000 q.period
    period := if q.restart then clamp 10 1000 q.period else s.acq.period
    scanTimer := if q.restart then s.acq.scanTimer.map (fun _ => s.inMs (clamp 10 1000 q.period)) else s.acq.scanTimer }

/-- What an accepted SET ACQUISITION makes of the unit and the depth counter (R22 to R24, R27). -/
def acquired (q : AcqRequest) (s : State) : State :=
  if s.acq.state = .waiting ∧ q.mode = .off then
    { s with
      acq := { pendingAcq q s with
        activeList := q.list, activeMode := q.mode, state := .off, scanTimer := none, conversion := none, results := [] }
      depth := Governed s.depth { s.depth.reasons with acqOff := true } }
  else if s.acq.state = .off ∧ q.mode ≠ .off then
    { s with
      acq := { pendingAcq q s with
        activeList := q.list, activeMode := q.mode, state := .settling, results := []
        conversion := some (s.inMs 20)
        scanTimer := if q.mode = .timed then some (s.inMs (pendingAcq q s).period) else none }
      depth := Governed s.depth { s.depth.reasons with acqOff := false } }
  else { s with acq := pendingAcq q s }

theorem acquired_links (q : AcqRequest) (s : State) (n : Links) :
    acquired q { s with links := n } = { acquired q s with links := n } := by
  unfold acquired
  dsimp only
  split
  · rfl
  · split <;> rfl

/-- What an accepted SET ACQUISITION does before the unit moves. -/
theorem pendingAcq_eq (q : AcqRequest) (s : State) :
    (if q.restart then reloadScanTimer (s.setAcq fun a => { a with
        pendingList := q.list, pendingMode := q.mode, newPeriod := clamp 10 1000 q.period })
      else s.setAcq fun a => { a with
        pendingList := q.list, pendingMode := q.mode, newPeriod := clamp 10 1000 q.period })
      = { s with acq := pendingAcq q s } := by
  unfold pendingAcq
  split <;> rfl

theorem leaveOff_eq {s : State} (stopped : s.acq.scanTimer = none) : leaveOff s =
    { s with
      acq := { s.acq with
        activeList := s.acq.pendingList, activeMode := s.acq.pendingMode, state := .settling, results := []
        conversion := some (s.inMs 20)
        scanTimer := if s.acq.pendingMode = .timed then some (s.inMs s.acq.period) else none }
      depth := Governed s.depth { s.depth.reasons with acqOff := false }
      links := raisedLinks (if s.depth.feedHold = (Governed s.depth { s.depth.reasons with acqOff := false }).feedHold
        then 0 else Flag.feedHold.only) s.links } := by
  unfold leaveOff
  rw [govern_eq]
  by_cases timed : s.acq.pendingMode = .timed
  · apply state_eq <;> simp [startScan, adopt, loadScanTimer, State.setAcq, timed, State.inMs]
  · apply state_eq <;> simp [startScan, adopt, State.setAcq, timed, stopped, State.inMs]

theorem acceptAcquisition_eq (q : AcqRequest) {s : State} (h : s.acq.state = .off → s.acq.scanTimer = none) :
    acceptAcquisition q s =
      { acquired q s with links := raisedLinks (flagsOfList (holdChange s (acquired q s))) s.links } := by
  have quiet : raisedLinks (flagsOfList []) s.links = s.links := raisedLinks_zero s.links
  have same {t : State} (e : t.depth = s.depth) : holdChange s t = [] := by simp [holdChange, e]
  unfold acceptAcquisition
  dsimp only
  rw [pendingAcq_eq]
  obtain ⟨list, period, mode, restart⟩ := q
  by_cases stop : s.acq.state = .waiting ∧ mode = .off
  · obtain ⟨waiting, rfl⟩ := stop
    rw [flagsOfList_holdChange, acquired, if_pos ⟨waiting, rfl⟩]
    simp only [pendingAcq, waiting]
    rw [toOff_eq]
    rfl
  · by_cases start : s.acq.state = .off ∧ mode ≠ .off
    · have stopped : (pendingAcq ⟨list, period, mode, restart⟩ s).scanTimer = none := by simp [pendingAcq, h start.1]
      have left := leaveOff_eq (s := { s with acq := pendingAcq ⟨list, period, mode, restart⟩ s }) stopped
      rw [flagsOfList_holdChange, acquired, if_neg stop, if_pos start]
      cases mode with
      | off => exact absurd rfl start.2
      | timed => rw [show (pendingAcq ⟨list, period, .timed, restart⟩ s).state = .off from start.1]; exact left
      | free => rw [show (pendingAcq ⟨list, period, .free, restart⟩ s).state = .off from start.1]; exact left
    · have unmoved : acquired ⟨list, period, mode, restart⟩ s = { s with acq := pendingAcq ⟨list, period, mode, restart⟩ s } := by
        rw [acquired, if_neg stop, if_neg start]
      rw [unmoved, same (t := { s with acq := pendingAcq ⟨list, period, mode, restart⟩ s }) rfl, quiet]
      have state : (pendingAcq ⟨list, period, mode, restart⟩ s).state = s.acq.state := rfl
      rw [state]
      cases mode <;> grind

/-- Settles O38: by the checks of the payload, then by the unit's state and the new mode. -/
theorem setAcquisitionTakesListPeriodAndMode : Obligations.SetAcquisitionTakesListPeriodAndMode := by
  intro s f h
  have refused {r : Reason} (e : acqRequestOf f.payload = .error r) : Refuses .setAcquisition .cab f r [] s :=
    refuses_of_rule (c := .setAcquisition) rfl h rfl (by simp only [rowRule, setAcquisitionBody, e])
  refine ⟨fun bad => refused ?_, fun k codes p1 p2 m r hp hk => ⟨fun bad => refused ?_, ?_⟩⟩
  · unfold acqRequestOf; rw [if_pos bad]
  · rw [hp, acqRequestOf_eq hk]
    rcases bad with rfl | many | code | mode | choice
    · rfl
    · rw [if_pos (.inr many)]
    · rw [channelsOf_none code]; split <;> rfl
    · rw [acqModeOf_none mode]; split <;> [rfl; (split <;> rfl)]
    · rw [restartChoiceOf_none choice]
      cases channelsOf codes <;> cases acqModeOf m <;> exact ite_self _
  · intro list mode low high choice names code stopped np pending u
    have ok : acqRequestOf f.payload
        = .ok { list := list, period := two p1 p2, mode := mode, restart := decide (r = 1) } := by
      rw [hp, acqRequestOf_eq hk, if_neg (by omega), channelsOf_some names, acqModeOf_some code, restartChoiceOf_some choice]
    have period : np = clamp 10 1000 (two p1 p2) := (clamp_eq (by decide) _).symm
    refine serves_of_rule (c := .setAcquisition) rfl h rfl ?_
    simp only [rowRule, setAcquisitionBody, ok]
    rw [acceptAcquisition_eq _ (by simpa using stopped), takeHead_eq, acquired_links]
    have now : acquired { list := list, period := two p1 p2, mode := mode, restart := decide (r = 1) } s = u := by
      simp only [acquired, pendingAcq, decide_eq_true_eq, ← period]
      rfl
    have mark : (np != two p1 p2) = decide (np ≠ two p1 p2) := by by_cases e : np = two p1 p2 <;> simp [e]
    rw [now, ← period, mark]
    rfl

end Sys2Proof.Machine
end

section
/-! The plates (chapter 7) and the pickups and timers of the drives that only count (R101, R102, R120). -/

namespace Sys2Proof.Machine

open Sys2Proof.Safety

/-! ## One judgement of a plate (R130 to R132) -/

/-- Whether a valid scan puts a plate into FAULT. -/
def jams (r : ScanRecord) (i : PlateId) (s : State) : Bool :=
  decide ((s.plate i).state ≠ .fault) && (r.get (strokeChannel i)).any (·.saturated)

/-- A plate after its judgement at a valid scan. -/
def plateAfter (r : ScanRecord) (i : PlateId) (s : State) : Plate :=
  if (s.plate i).state = .fault then s.plate i
  else match r.get (strokeChannel i) with
    | none => s.plate i
    | some v =>
      if v.saturated then (s.plate i).enter .fault
      else judgePlate s.demand.tuning.plateBand (strokeOf v.value)
        (if s.plates.override.active then 0 else s.align.demands.of i) (s.inMs s.demand.tuning.travelTime) (s.plate i)

theorem entryOf_stroke (r : ScanRecord) (i : PlateId) : entryOf r (strokeCode i) = r.get (strokeChannel i) := by
  cases i <;> rfl

theorem jams_iff (r : ScanRecord) (i : PlateId) (s : State) : jams r i s = true ↔ Jams s r i := by
  unfold jams Jams
  rw [entryOf_stroke, Bool.and_eq_true, decide_eq_true_eq, Option.any_eq_true]

theorem setPlate_self (s : State) (i : PlateId) : s.setPlate i (s.plate i) = s := by cases i <;> rfl

/-- One plate and the links replaced. -/
def platePut (i : PlateId) (p : Plate) (n : Links) (s : State) : State := { s.setPlate i p with links := n }

theorem platePut_links (i : PlateId) (p : Plate) (n : Links) (s : State) : (platePut i p n s).links = n := rfl

theorem plateAfter_platePut (r : ScanRecord) {i j : PlateId} (h : j ≠ i) (p : Plate) (n : Links) (s : State) :
    plateAfter r j (platePut i p n s) = plateAfter r j s := by
  cases i <;> cases j <;> first | exact absurd rfl h | rfl

theorem jams_platePut (r : ScanRecord) {i j : PlateId} (h : j ≠ i) (p : Plate) (n : Links) (s : State) :
    jams r j (platePut i p n s) = jams r j s := by
  cases i <;> cases j <;> first | exact absurd rfl h | rfl

theorem plateJudgement_eq (r : ScanRecord) (i : PlateId) (s : State) : plateJudgement r i s =
    platePut i (plateAfter r i s) (raisedLinks (if jams r i s then Flag.plateFault.only else 0) s.links) s := by
  have quiet : raisedLinks 0 s.links = s.links := raisedLinks_zero s.links
  unfold plateJudgement plateAfter jams platePut
  by_cases inFault : (s.plate i).state = .fault
  · simp only [inFault, if_true, ne_eq, not_true_eq_false, decide_false, Bool.false_and, Bool.false_eq_true, if_false, quiet]
    rw [setPlate_self]
  · rw [if_neg inFault, if_neg inFault]
    cases r.get (strokeChannel i) with
    | none => simp [setPlate_self]
    | some v =>
      cases sat : v.saturated
      · simp only [sat, Bool.false_eq_true, if_false, Option.any_some, Bool.and_false, quiet]
        cases i <;> rfl
      · simp only [sat, if_true, Option.any_some, Bool.and_true, ne_eq, inFault, not_false_eq_true, decide_true]
        unfold faultPlate
        rw [raise_eq]
        cases i <;> rfl

theorem platePut_four (af ar bf br : Plate) (n1 n2 n3 n4 : Links) (s : State) :
    platePut .br br n4 (platePut .bf bf n3 (platePut .ar ar n2 (platePut .af af n1 s))) =
      { s with plates := { af := af, ar := ar, bf := bf, br := br, override := s.plates.override }, links := n4 } := by
  cases s
  rfl

/-- The four plates, judged one after the other. -/
theorem plates_judged (r : ScanRecord) (s : State) :
    plateJudgement r .br (plateJudgement r .bf (plateJudgement r .ar (plateJudgement r .af s))) =
    { s with
      plates := { af := plateAfter r .af s, ar := plateAfter r .ar s, bf := plateAfter r .bf s, br := plateAfter r .br s
                  override := s.plates.override }
      links := raisedLinks (if jams r .af s || jams r .ar s || jams r .bf s || jams r .br s then Flag.plateFault.only else 0)
        s.links } := by
  have flags (a b c d : Bool) (n : Links) :
      raisedLinks (if d then Flag.plateFault.only else 0) (raisedLinks (if c then Flag.plateFault.only else 0)
        (raisedLinks (if b then Flag.plateFault.only else 0) (raisedLinks (if a then Flag.plateFault.only else 0) n)))
      = raisedLinks (if a || b || c || d then Flag.plateFault.only else 0) n := by
    simp only [raisedLinks_raisedLinks]
    congr 1
    cases a <;> cases b <;> cases c <;> cases d <;> decide
  rw [← flags]
  simp only [plateJudgement_eq, platePut_links, plateAfter_platePut r (by decide : PlateId.ar ≠ .af),
    plateAfter_platePut r (by decide : PlateId.bf ≠ .af), plateAfter_platePut r (by decide : PlateId.bf ≠ .ar),
    plateAfter_platePut r (by decide : PlateId.br ≠ .af), plateAfter_platePut r (by decide : PlateId.br ≠ .ar),
    plateAfter_platePut r (by decide : PlateId.br ≠ .bf), jams_platePut r (by decide : PlateId.ar ≠ .af),
    jams_platePut r (by decide : PlateId.bf ≠ .af), jams_platePut r (by decide : PlateId.bf ≠ .ar),
    jams_platePut r (by decide : PlateId.br ≠ .af), jams_platePut r (by decide : PlateId.br ≠ .ar),
    jams_platePut r (by decide : PlateId.br ≠ .bf)]
  exact platePut_four ..

/-- The override, judged now (R129). -/
def overridden (s : State) : State := { s with plates := { s.plates with override := overrideCauses s } }

theorem jams_overridden (r : ScanRecord) (i : PlateId) (s : State) : jams r i (overridden s) = jams r i s := by
  cases i <;> rfl

/-- A plate after a valid scan, in terms of the state before. -/
theorem plateAfter_overridden (r : ScanRecord) (i : PlateId) (s : State) : plateAfter r i (overridden s) =
    if (s.plate i).state = .fault then s.plate i
    else match r.get (strokeChannel i) with
      | none => s.plate i
      | some v =>
        if v.saturated then (s.plate i).enter .fault
        else judgePlate s.demand.tuning.plateBand (strokeOf v.value)
          (if (overrideCauses s).active then 0 else s.align.demands.of i) (s.inMs s.demand.tuning.travelTime) (s.plate i) := by
  cases i <;> rfl

/-- Settles O44: each plate by its judgement, the links by the plates that jam. -/
theorem platesAreJudgedAtScans : Obligations.PlatesAreJudgedAtScans := by
  intro s r hd t
  refine ⟨fun invalid => if_neg (by rw [invalid]; nofun), fun valid => ?_⟩
  intro override jamming
  have scanned : t = _ := (if_pos valid).trans (plates_judged r (overridden s))
  have plate (i : PlateId) : t.plate i = _ := Eq.trans (by rw [scanned]; cases i <;> rfl) (plateAfter_overridden r i s)
  have links : t.links = raisedLinks
      (if jams r .af s || jams r .ar s || jams r .bf s || jams r .br s then Flag.plateFault.only else 0) s.links := by
    rw [scanned]
    simp only [jams_overridden]
    rfl
  have some_iff : (jams r .af s || jams r .ar s || jams r .bf s || jams r .br s) = true ↔ ∃ i, jamming i := by
    simp only [Bool.or_eq_true, jams_iff]
    exact ⟨by rintro (((h | h) | h) | h) <;> exact ⟨_, h⟩, by rintro ⟨i, h⟩; cases i <;> simp [jamming] at h <;> simp [h]⟩
  have band : 0 ≤ s.demand.tuning.plateBand := by
    obtain ⟨-, -, tuning, -⟩ := hd
    exact le_trans (by decide : (0 : Int) ≤ 1) (tuning 12 s.demand.tuning.plateBand rfl).1
  refine ⟨?_, fun some => ?_, fun none => ?_, fun i => ⟨fun stays => ?_, fun jam => ?_, fun v free entry clean => ?_⟩⟩
  · have (i : PlateId) : t.plate i = plateAfter r i (overridden s) := by rw [scanned]; cases i <;> rfl
    rw [this, this, this, this, scanned]
    rfl
  · rw [linksKept_iff, links, if_pos (some_iff.mpr some), flagsOfList_cons, flagsOfList_nil]
    rfl
  · rw [links, if_neg fun h => (some_iff.mp h).elim none]
    exact raisedLinks_zero s.links
  · rw [plate]
    rcases stays with inFault | absent
    · exact if_pos inFault
    · rw [entryOf_stroke] at absent
      rw [absent]
      exact ite_self _
  · obtain ⟨free, v, entry, sat⟩ := jam
    rw [entryOf_stroke] at entry
    rw [plate, if_neg free, entry]
    exact if_pos sat
  · rw [entryOf_stroke] at entry
    have after : t.plate i = judgePlate s.demand.tuning.plateBand (strokeOf v.value)
        (if override.active then 0 else s.align.demands.of i) (s.inMs s.demand.tuning.travelTime) (s.plate i) := by
      rw [plate, if_neg free, entry]
      exact if_neg (by rw [clean]; nofun)
    rw [after]
    refine ⟨judgePlate_spec _ _ _ band free, fun outputs low high => judgePlate_outputs outputs _ _ _ ?_ ?_⟩ <;> split <;> omega

/-! ## Travel timers and CLEAR PLATE FAULT (R133, R134) -/

/-- A plate that CLEAR PLATE FAULT names. -/
def cleared (p : Plate) : Plate := if p.state = .fault then p.enter .hold else p

theorem clearPlate_eq (s : State) (i : PlateId) : clearPlate s i = s.setPlate i (cleared (s.plate i)) := by
  unfold clearPlate cleared
  split
  · rfl
  · exact (setPlate_self s i).symm

theorem cleared_cleared (p : Plate) : cleared (cleared p) = cleared p := by
  unfold cleared
  split
  · simp [Plate.enter]
  · rfl

theorem clearPlates_plate (ids : List PlateId) (s : State) (i : PlateId) :
    (ids.foldl clearPlate s).plate i = if i ∈ ids then cleared (s.plate i) else s.plate i := by
  induction ids generalizing s with
  | nil => rfl
  | cons j ids ih =>
    rw [List.foldl_cons, ih, clearPlate_eq, setPlate_plate]
    by_cases e : i = j
    · simp [e, cleared_cleared]
    · simp [e]

theorem clearPlates_frame (ids : List PlateId) (s : State) :
    let t := ids.foldl clearPlate s
    t = { s with plates := { af := t.plate .af, ar := t.plate .ar, bf := t.plate .bf, br := t.plate .br
                             override := s.plates.override } } := by
  induction ids generalizing s with
  | nil => rfl
  | cons j ids ih =>
    refine (ih (clearPlate s j)).trans ?_
    rw [List.foldl_cons, clearPlate_eq]
    generalize cleared (s.plate j) = p
    cases j <;> rfl

/-- The plates that a code names. -/
theorem platesOf_spec {b : Byte} (h : b.toNat ≤ 4) :
    ∃ ids, platesOf b = some ids ∧ ∀ i, i ∈ ids ↔ b.toNat = 4 ∨ b.toNat = plateCode i := by
  have code (n : Nat) (e : b.toNat = n) : b = BitVec.ofNat 8 n := by rw [← e, BitVec.ofNat_toNat, BitVec.setWidth_eq]
  rcases (by omega : b.toNat = 0 ∨ b.toNat = 1 ∨ b.toNat = 2 ∨ b.toNat = 3 ∨ b.toNat = 4) with e | e | e | e | e <;>
    rw [e, code _ e] <;> exact ⟨_, rfl, fun i => by cases i <;> decide⟩

theorem platesOf_none {b : Byte} (h : 4 < b.toNat) : platesOf b = none := by
  unfold platesOf
  rw [if_neg (by rintro rfl; exact absurd h (by decide)), if_neg (by rintro rfl; exact absurd h (by decide)),
    if_neg (by rintro rfl; exact absurd h (by decide)), if_neg (by rintro rfl; exact absurd h (by decide)),
    if_neg (by rintro rfl; exact absurd h (by decide))]

theorem takeHead_plate (l : Link) (s : State) (i : PlateId) : (takeHead l s).plate i = s.plate i := by
  cases i <;> simp [State.plate]

/-- Settles O45: the timer's end by `faultPlate`, the request by the plates it names. -/
theorem platesFaultAndAreCleared : Obligations.PlatesFaultAndAreCleared := by
  refine ⟨fun s i due hs hd => ?_, fun s f b h hp => ?_⟩
  · refine happens_of_rule (c := .travelTimerExpiry i) hs hd ?_
    simp only [eventRule, faultPlate]
    rw [raise_eq, flagsOfList_cons, flagsOfList_nil]
    cases i <;> rfl
  intro named
  have row : rowRule .clearPlateFault .cab f.payload (takeHead .cab s) = clearPlateFaultBody .cab f.payload (takeHead .cab s) :=
    payloadOf_length (by rw [hp]; rfl) _ _ _
  have byte : f.payload.headD 0 = b := by rw [hp]; rfl
  refine ⟨fun bad => ?_, fun ok free => ?_, fun ok ⟨j, nj, fj⟩ => ?_⟩
  · refine refuses_of_rule (c := .clearPlateFault) rfl h rfl (row.trans ?_)
    rw [clearPlateFaultBody, byte, platesOf_none bad]
  · obtain ⟨ids, code, mem⟩ := platesOf_spec ok
    refine refuses_of_rule (c := .clearPlateFault) rfl h rfl (row.trans ?_)
    simp only [clearPlateFaultBody, byte, code]
    refine if_neg ?_
    rw [List.any_eq_true]
    rintro ⟨i, hi, faulty⟩
    rw [takeHead_plate, decide_eq_true_eq] at faulty
    exact free i ((mem i).mp hi) faulty
  · obtain ⟨ids, code, mem⟩ := platesOf_spec ok
    have served : rowRule .clearPlateFault .cab f.payload (takeHead .cab s)
        = (ids.foldl clearPlate (takeHead .cab s), doneWith []) := by
      rw [row]
      simp only [clearPlateFaultBody, byte, code]
      exact if_pos (List.any_eq_true.mpr ⟨j, (mem j).mpr nj, by rw [takeHead_plate, fj]; rfl⟩)
    have frame := clearPlates_frame ids (takeHead .cab s)
    refine completes_of_rule (c := .clearPlateFault) (fs := []) rfl h rfl served ?_ fun t same raised answered => ?_
    · rw [frame, flagsOfList_nil]
      exact (raisedLinks_zero _).symm
    · have plate (i : PlateId) : t.plate i = if i ∈ ids then cleared (s.plate i) else s.plate i := by
        rw [← takeHead_plate .cab s i, ← clearPlates_plate, same]
        cases i <;> rfl
      refine ⟨?_, fun i => ⟨fun ⟨ni, fi⟩ => ?_, fun other => ?_⟩, raised, answered⟩
      · have listed (i : PlateId) : t.plate i = (ids.foldl clearPlate (takeHead .cab s)).plate i := by
          rw [same]; cases i <;> rfl
        generalize ids.foldl clearPlate (takeHead .cab s) = v at *
        rw [listed, listed, listed, listed]
        refine same.trans ((congrArg (fun x : State => { x with links := t.links }) frame).trans ?_)
        rw [takeHead_eq]
      · rw [plate, if_pos ((mem i).mpr ni), cleared, if_pos fi]
        rfl
      · rw [plate]
        split
        · rename_i hi
          exact if_neg fun fi => other ⟨(mem i).mp hi, fi⟩
        · rfl

/-! ## Pickups (R101, R102) and loaded time (R120) -/

theorem raiseIf_eq (c : Bool) (f : Flag) (s : State) :
    raiseIf c f s = { s with links := raisedLinks (if c then f.only else 0) s.links } := by
  cases c
  · exact state_eq rfl rfl rfl rfl rfl rfl rfl rfl rfl rfl rfl rfl (raisedLinks_zero s.links).symm rfl rfl rfl
  · rfl

theorem flagsOfList_noticeFlags (b : Bool) : flagsOfList (noticeFlags b) = if b then Flag.tallyNearFull.only else 0 := by
  cases b <;> rfl

theorem raisedLinks_notices (a b : Bool) (n : Links) :
    raisedLinks (flagsOfList (noticeFlags b)) (raisedLinks (flagsOfList (noticeFlags a)) n)
      = raisedLinks (flagsOfList (noticeFlags (a || b))) n := by
  rw [raisedLinks_raisedLinks]
  congr 1
  cases a <;> cases b <;> decide

theorem rev_le {s : State} (h : CounterLaw s) (d : DriveId) : (s.motor d).rev.value ≤ 16777215 := by
  obtain ⟨-, -, all⟩ := h
  refine all _ ?_
  cases d <;> simp [counters, Drives.counters, State.motor]

theorem loadedTime_le {s : State} (h : CounterLaw s) (w : WheelId) : (s.wheel w).loadedTime.value ≤ 16777215 := by
  obtain ⟨-, -, all⟩ := h
  refine all _ ?_
  cases w <;> simp [counters, Drives.counters, State.wheel]

theorem edgeIgnored_iff {s : State} {m : Motor} : edgeIgnored s m = true ↔ ∃ p, s.capture m = some p ∧ p < 200 := by
  unfold edgeIgnored
  cases s.capture m <;> simp

/-- The speed of a pickup period (R101). -/
def pickupSpeed (silent : Bool) (ppr : Int) : Option Nat → Int
  | none => 0
  | some p => if silent = true ∨ p = 16777215 then 0 else max 0 (min 65535 ((600000000 : Int).tdiv (p * ppr)))

/-- The speed that an accepted edge gives, of the period the capture timer shows. -/
theorem edgeSpeed_eq {s : State} {m : Motor} {period : Option Nat} (h : s.capture m = period) (ppr : Int) :
    edgeSpeed s m ppr = pickupSpeed m.noSpeed ppr period := by
  unfold edgeSpeed pickupSpeed
  rw [h]
  cases period with
  | none => rfl
  | some p =>
    have top : p ≤ 16777215 := by
      obtain ⟨t, -, rfl⟩ := Option.map_eq_some_iff.mp h
      exact min_le_right _ _
    have stopped : captureMax ≤ p ↔ p = 16777215 := ⟨fun g => le_antisymm top g, fun g => g ▸ le_rfl⟩
    simp only [stopped, speedOf, clamp_eq (show (0 : Int) ≤ 65535 by decide)]

/-- Whether a wheel drive's loaded time counts (R120). -/
def loadCounts (s : State) (d : WheelDrive) : Bool := d.loaded && decide (s.panel = .active)

theorem loadedTick_eq (w : WheelId) {s : State} (h : (s.wheel w).loadedTime.value ≤ 16777215) : loadedTick w s =
    { s.setWheel w (if loadCounts s (s.wheel w) then { s.wheel w with loadedTime := tickOf (s.wheel w).loadedTime } else s.wheel w) with
      links := raisedLinks (flagsOfList (noticeFlags (loadCounts s (s.wheel w) && notices (s.wheel w).loadedTime))) s.links } := by
  unfold loadedTick
  change (if loadCounts s (s.wheel w) = true then _ else _) = _
  rw [flagsOfList_noticeFlags, tick_eq h]
  cases loadCounts s (s.wheel w)
  · have quiet : raisedLinks 0 s.links = s.links := raisedLinks_zero s.links
    simp only [Bool.false_eq_true, if_false, Bool.false_and, quiet]
    cases w <;> rfl
  · simp only [if_true, Bool.true_and]
    rw [raiseIf_eq]
    cases w <;> rfl

/-- Settles O46: the edge that is ignored, the one that is accepted, the timeout, and the loaded-time timer drive by
drive. -/
theorem pickupsAndLoadedTimeCount : Obligations.PickupsAndLoadedTimeCount := by
  refine ⟨fun s d elapsed hs law => ?_, fun s d due hs hd => ?_, fun s due hs law hd => ?_⟩
  · intro now m period ppr
    have reach : s.reach (s.clock + elapsed) = { s with clock := now } :=
      congrArg (fun n => { s with clock := n }) (max_eq_right (Nat.le_add_right _ _))
    have capture : State.capture { s with clock := now } m = period := rfl
    have same : State.motor { s with clock := now } d = m := by cases d <;> rfl
    refine ⟨fun early => ?_, fun late => ?_⟩
    · rw [exec_due (c := .pickupEdge d elapsed) hs rfl, reach]
      simp only [eventRule]
      unfold pickupEdge
      rw [same]
      exact congrArg Host.Outcome.next (if_pos (edgeIgnored_iff.mpr (by rw [capture]; exact early)))
    · refine happens_of_rule (c := .pickupEdge d elapsed) hs rfl ?_
      have accepted : edgeIgnored { s with clock := now } m = false :=
        Bool.eq_false_iff.mpr fun e => by
          obtain ⟨p, hp, short⟩ := edgeIgnored_iff.mp e
          exact absurd (late p hp) (by omega)
      have revs : (if s.panel = .active then m.rev.tick else (m.rev, false))
          = (if s.panel = .active then tickOf m.rev else m.rev, decide (s.panel = .active) && notices m.rev) := by
        rw [tick_eq (rev_le law d)]
        by_cases active : s.panel = .active <;> simp [active, m]
      rw [reach]
      simp only [eventRule]
      unfold pickupEdge
      rw [same]
      dsimp only
      rw [accepted, if_neg Bool.false_ne_true, revs, edgeSpeed_eq capture, raiseIf_eq, flagsOfList_noticeFlags]
      cases d <;> cases period <;> rfl
  · rw [exec_due (c := .pickupTimeout d) hs hd]
    cases d <;> rfl
  · intro counts after
    refine happens_of_rule (c := .loadedTimeExpiry) hs hd ?_
    simp only [eventRule, loadedTime]
    rw [loadedTick_eq .a, loadedTick_eq .b]
    rotate_left
    · exact loadedTime_le law .b
    · exact loadedTime_le law .a
    refine Eq.trans ?_ (congrArg (fun n => { s with
      clock := max s.clock due
      drives := { s.drives with
        a := after s.drives.a, b := after s.drives.b, loadedTimer := some (max s.clock due + 100000) }
      links := n }) (raisedLinks_notices (counts s.drives.a && notices s.drives.a.loadedTime)
        (counts s.drives.b && notices s.drives.b.loadedTime) s.links))
    rfl

end Sys2Proof.Machine
end

section
/-! The Return Balance Unit's decisions (R137 to R149): reports, feed windows and the unit's timers. -/

namespace Sys2Proof.Machine

open Sys2Proof.Safety

/-! ## A decision of the return state (R149) -/

/-- The state after the unit has decided on a return state and recomputed the limit. -/
def decided (st : ReturnState) (s : State) : State :=
  { s with
    ret := { s.ret with state := st, limit := limitIn s.demand { s.ret with state := st } }
    depth := afterReturn s.depth s.ret.state st }

/-- A decision other than STOPPED and BLOCKED, or that keeps the state, leaves the confirm and recovery timers alone. -/
theorem decision_eq {st : ReturnState} (s : State) (h : st = s.ret.state ∨ (st ≠ .stopped ∧ st ≠ .blocked)) :
    recomputeLimit (enterReturn st s) =
      { decided st s with
        links := raisedLinks (flagsOfList (returnChange s (decided st s) ++ holdChange s (decided st s))) s.links } := by
  have links : (recomputeLimit (enterReturn st s)).links
      = raisedLinks (flagsOfList (returnChange s (decided st s) ++ holdChange s (decided st s))) s.links := by
    rw [recomputeLimit_links, enterReturn_links, flagsOfList_append, flagsOfList_returnChange, flagsOfList_holdChange]
    rfl
  have ret : (recomputeLimit (enterReturn st s)).ret = (decided st s).ret := by
    change { (enterReturn st s).ret with limit := limitIn (enterReturn st s).demand (enterReturn st s).ret } = _
    rw [enterReturn_demand, enterReturn_ret]
    split
    · rename_i same
      rw [decided, same]
    · rename_i change
      obtain ⟨stopped, blocked⟩ := h.resolve_left change
      rw [if_neg (not_or.mpr ⟨stopped, blocked⟩), if_neg stopped]
      rfl
  rw [← links]
  apply state_eq <;> simp [ret, decided]

theorem decided_limit (st : ReturnState) (s : State) : LimitAgrees s.demand (decided st s).ret :=
  recomputeLimit_agrees { s with ret := { s.ret with state := st } }

/-- The entry into another return state, as one record. -/
theorem enterReturn_change {st : ReturnState} {s : State} (h : st ≠ s.ret.state) : enterReturn st s =
    { s with
      ret := { s.ret with
        state := st, limit := limitIn s.demand { s.ret with state := st }
        confirm := if st = .stopped ∨ st = .blocked then none else s.ret.confirm
        recovery := if st = .stopped then none else s.ret.recovery }
      depth := Governed s.depth { s.depth.reasons with ret := holdsReturn st }
      links := raisedLinks (Flag.returnState.only ||| if s.depth.feedHold
        = (Governed s.depth { s.depth.reasons with ret := holdsReturn st }).feedHold then 0 else Flag.feedHold.only) s.links } := by
  have depth : afterReturn s.depth s.ret.state st = Governed s.depth { s.depth.reasons with ret := holdsReturn st } := if_neg h
  rw [enterReturn_spec, enterReturn_ret, if_neg h, enterReturn_depth, enterReturn_links, if_neg h, depth]

theorem enterReturn_same (s : State) : enterReturn s.ret.state s = s := if_pos rfl

/-! ## The conditions of CONGESTED (R146) -/

theorem densityAbove_iff {b : ReturnBalance} {bound : Int} :
    b.densityAbove bound = true ↔ ∃ r, b.report = some r ∧ bound < r.returnDensity := by
  unfold ReturnBalance.densityAbove
  cases b.report <;> simp

theorem congestionEntry_iff (d : PumpGroup) (b : ReturnBalance) : congestionEntry d b = true ↔ Congests d b := by
  rw [congestionEntry, Bool.or_eq_true, decide_eq_true_eq, densityAbove_iff]
  rfl

theorem congestionExit_iff (d : PumpGroup) (b : ReturnBalance) : congestionExit d b = true ↔ Uncongests d b := by
  have lower : (b.densityAbove (d.densityLimit - 10)) = false
      ↔ ∀ r, b.report = some r → r.returnDensity ≤ d.densityLimit - 10 := by
    rw [Bool.eq_false_iff, ne_eq, densityAbove_iff]
    push Not
    rfl
  rw [congestionExit, Bool.and_eq_true, Bool.and_eq_true, decide_eq_true_eq, Bool.not_eq_true', Bool.not_eq_true', lower,
    Bool.eq_false_iff, ne_eq, congestionEntry_iff, and_assoc]
  rfl

theorem stateAtReport_spec {d : PumpGroup} {b : ReturnBalance} {r : Report} (h : b.report = some r) (fresh : b.fresh = true) :
    AtReport d b r.flow (stateAtReport d b) := by
  have flow : b.flow = r.flow := by rw [ReturnBalance.flow, h]
  have enters := congestionEntry_iff d b
  have leaves := congestionExit_iff d b
  unfold AtReport stateAtReport
  refine ⟨fun e => ?_, fun e => ?_, fun e => ?_, fun e => ?_⟩
  · rw [e, flow, ← enters]
    refine ⟨fun low => if_neg (not_le.mpr low), fun enough => ⟨fun c => ?_, fun c => ?_⟩⟩ <;> simp [enough, c]
  · rcases e with e | e <;> rw [e, ← enters] <;> exact ⟨fun c => if_pos c, fun c => if_neg c⟩
  · rw [e, ← leaves, fresh]
    exact ⟨fun c => if_pos c, fun c => if_neg c⟩
  · rcases e with e | e <;> rw [e]

theorem stateAtWindow_spec (d : PumpGroup) (b : ReturnBalance) : AtWindow d b (stateAtWindow d b) := by
  have enters := congestionEntry_iff d b
  have leaves := congestionExit_iff d b
  unfold AtWindow stateAtWindow
  refine ⟨fun e => ?_, fun e => ?_, fun e => ?_⟩
  · rcases e with e | e <;> rw [e, ← enters] <;> exact ⟨fun c => if_pos c, fun c => if_neg c⟩
  · rw [e, ← leaves]
    exact ⟨fun c => if_pos c, fun c => if_neg c⟩
  · rcases e with e | e | e <;> rw [e]

/-- A report does not stop or block the return. -/
theorem stateAtReport_moves (d : PumpGroup) (b : ReturnBalance) :
    stateAtReport d b = b.state ∨ (stateAtReport d b ≠ .stopped ∧ stateAtReport d b ≠ .blocked) := by
  unfold stateAtReport
  cases b.state <;> dsimp only <;> grind

theorem stateAtWindow_moves (d : PumpGroup) (b : ReturnBalance) :
    stateAtWindow d b = b.state ∨ (stateAtWindow d b ≠ .stopped ∧ stateAtWindow d b ≠ .blocked) := by
  unfold stateAtWindow
  cases b.state <;> dsimp only <;> grind

/-! ## The unit's timers (R138, R147, R148) -/

/-- The last report stops being fresh. -/
def staled (s : State) : State := { s with ret := { s.ret with fresh := false, staleTimer := none } }

/-- The return state once the last report is stale (R138, R145). -/
def staleState (st : ReturnState) : ReturnState := if st = .normal then .blind else st

theorem reportStale_eq (s : State) :
    reportStale s = recomputeLimit (enterReturn (staleState s.ret.state) (staled s)) := by
  unfold reportStale staleState
  by_cases normal : s.ret.state = .normal
  · rw [if_pos normal]; exact congrArg recomputeLimit (if_pos normal)
  · rw [if_neg normal]; exact congrArg recomputeLimit ((if_neg normal).trans (enterReturn_same (staled s)).symm)

theorem staleState_moves (st : ReturnState) : staleState st = st ∨ (staleState st ≠ .stopped ∧ staleState st ≠ .blocked) := by
  cases st <;> decide

/-- Settles O33: a decision at each of the three expiries. -/
theorem returnTimersChangeTheState : Obligations.ReturnTimersChangeTheState := by
  intro s due hs now
  refine ⟨fun hd => ?_, fun hd other => ?_, fun hd blocked => ?_⟩
  · refine completes_due (c := .reportStaleExpiry) hs hd ?_
    have stale : eventRule .reportStaleExpiry (s.reach due) = _ :=
      (reportStale_eq (s.reach due)).trans (decision_eq (staled (s.reach due)) (staleState_moves s.ret.state))
    have limit := decided_limit (staleState s.ret.state) (staled (s.reach due))
    rw [stale]
    exact ⟨rfl, limit, (linksKept_iff _ _ _).mpr rfl⟩
  · intro u
    refine happens_of_rule (c := .blockageConfirmExpiry) hs hd ?_
    simp only [eventRule]
    rw [enterReturn_change (by exact other.symm), flagsOfList_cons, flagsOfList_holdChange]
    rfl
  · intro u
    refine happens_of_rule (c := .recoveryTimerExpiry) hs hd ?_
    simp only [eventRule]
    rw [enterReturn_change (by change _ ≠ s.ret.state; rw [blocked]; nofun), flagsOfList_cons, flagsOfList_holdChange]
    rfl

/-! ## REPORT RETURN (R137) -/

theorem raisedLinks_append (fs gs : List Flag) (n : Links) :
    raisedLinks (flagsOfList (fs ++ gs)) n = raisedLinks (flagsOfList gs) (raisedLinks (flagsOfList fs) n) := by
  rw [flagsOfList_append, raisedLinks_raisedLinks]

theorem raiseIf_decide (c : Prop) [Decidable c] (f : Flag) (s : State) :
    raiseIf (decide c) f s = { s with links := raisedLinks (flagsOfList (if c then [f] else [])) s.links } := by
  have one : flagsOfList [f] = f.only := by rw [flagsOfList_cons, flagsOfList_nil]; exact BitVec.or_zero
  rw [raiseIf_eq]
  by_cases h : c
  · simp only [h, decide_true, if_true, one]
  · simp only [h, decide_false, Bool.false_eq_true, if_false]
    rfl

/-- The balance after a report is taken and the capacity recomputed. -/
def reported (r : Report) (s : State) : State :=
  recomputeCapacity { s with ret := { s.ret with
    report := some r, fresh := true, staleTimer := some (s.inMs s.demand.pump.staleTime) } }

/-- The same, with the flag of a supply no lighter than the ground. -/
def supplied (r : Report) (s : State) : State :=
  { reported r s with
    links := raisedLinks (flagsOfList (if s.geometry.groundDensity ≤ r.supplyDensity then [.sensorFault] else [])) s.links }

/-- A report, taken: the flag of a supply no lighter than the ground, and the decision. -/
theorem takeReport_eq (r : Report) (s : State) :
    let st := stateAtReport s.demand.pump (reported r s).ret
    let u := decided st (reported r s)
    takeReport r s = { u with
      links := raisedLinks (flagsOfList ((if s.geometry.groundDensity ≤ r.supplyDensity then [.sensorFault] else [])
        ++ returnChange s u ++ holdChange s u)) s.links } := by
  intro st u
  have taken : takeReport r s = recomputeLimit (enterReturn st (supplied r s)) := by
    unfold takeReport
    dsimp only
    rw [raiseIf_decide]
    rfl
  refine taken.trans ((decision_eq (supplied r s) (stateAtReport_moves s.demand.pump (reported r s).ret)).trans ?_)
  apply state_eq
  case links =>
    rw [List.append_assoc, raisedLinks_append (if s.geometry.groundDensity ≤ r.supplyDensity then [Flag.sensorFault] else [])]
    rfl
  all_goals rfl

theorem two_nonneg (a b : Byte) : 0 ≤ two a b := by unfold two; omega

theorem unsignedAt_two {p : List Byte} {k : Nat} {a b : Byte} (h : slice p k 2 = [a, b]) : unsignedAt p k 2 = two a b := by
  rw [unsignedAt, h]
  simp [unsignedOf, two]

/-- Settles O32: the report's fields, the decision, and the reply. -/
theorem reportReturnJudges : Obligations.ReportReturnJudges := by
  intro s l f q1 q2 r1 r2 u1 u2 h hb hp r
  have report : ({ flow := clamp 0 15000 (two q1 q2), returnDensity := clamp 1000 3000 (two r1 r2)
                   supplyDensity := clamp 1000 3000 (two u1 u2) } : Report) = r := by
    rw [clamp_eq (by decide), clamp_eq (by decide), clamp_eq (by decide),
      max_eq_right (le_min (by decide) (two_nonneg q1 q2))]
  have served : rowRule .reportReturn l f.payload (takeHead l s) =
      (takeReport r { s with links := (takeHead l s).links },
        { outcome := .done
          clamped := r.flow != two q1 q2 || r.returnDensity != two r1 r2 || r.supplyDensity != two u1 u2
          payload := field 1 (takeReport r { s with links := (takeHead l s).links }).ret.state.code
            ++ field 2 (takeReport r { s with links := (takeHead l s).links }).ret.limit }) := by
    refine (payloadOf_length (by rw [hp]; rfl) _ _ _).trans ?_
    rw [hp, reportReturnBody, unsignedAt_two (k := 0) rfl, unsignedAt_two (k := 2) rfl, unsignedAt_two (k := 4) rfl, report,
      ← takeHead_eq]
  rw [takeReport_eq] at served
  refine completes_of_rule (c := .reportReturn) rfl h hb served rfl fun t same raised answered => ?_
  have changed : t = { decided (stateAtReport s.demand.pump (reported r s).ret) (reported r s) with links := t.links } := same
  have ret : t.ret = (decided (stateAtReport s.demand.pump (reported r s).ret) (reported r s)).ret := by
    rw [changed]
  have state : t.ret.state = stateAtReport s.demand.pump (reported r s).ret := congrArg (·.state) ret
  have depth : t.depth = afterReturn s.depth s.ret.state t.ret.state := by
    rw [state, changed]; rfl
  refine ⟨?_, ?_, ?_, ?_, ?_⟩
  · rw [← depth]
    refine changed.trans ?_
    rw [depth, state, ret]
    rfl
  · rw [state]
    exact stateAtReport_spec (r := r) rfl rfl
  · refine recompute_agrees s t.ret ?_ ?_ ?_
    · rw [ret]; rfl
    · rw [ret]; rfl
    · rw [ret]; exact decided_limit _ (reported r s)
  · have returned : returnChange s t
        = returnChange s (decided (stateAtReport s.demand.pump (reported r s).ret) (reported r s)) := by rw [changed]; rfl
    have held : holdChange s t
        = holdChange s (decided (stateAtReport s.demand.pump (reported r s).ret) (reported r s)) := by rw [changed]; rfl
    rw [returned, held]
    exact raised
  · have mark : (r.flow != two q1 q2 || r.returnDensity != two r1 r2 || r.supplyDensity != two u1 u2)
        = decide (r.flow ≠ two q1 q2 ∨ r.returnDensity ≠ two r1 r2 ∨ r.supplyDensity ≠ two u1 u2) := by
      rw [Bool.eq_iff_iff]
      simp [or_assoc]
    rw [← mark, ← List.singleton_append, ← field_one, ret]
    exact answered

/-! ## The feed window (R44 to R46, R142) -/

theorem removed_eq (g : Geometry) (b : ReturnBalance) (ms : Int) : removed g b ms = removedIn g b ms := by
  unfold removed removedIn
  cases b.report with
  | none => cases b.fresh <;> rfl
  | some r =>
    cases b.fresh
    · exact (if_neg fun g => Bool.false_ne_true g.1).symm
    · by_cases lighter : r.supplyDensity < g.groundDensity
      · exact (if_neg (not_le.mpr lighter)).trans (if_pos ⟨rfl, lighter⟩).symm
      · exact (if_pos (not_lt.mp lighter)).trans (if_neg fun g => lighter g.2).symm

/-- The depth counter at the end of a feed window (R45, R46), before the feed governor is told. -/
def windowDepth (s : State) : DepthCounter :=
  let feed := feedOf ((s.depth.count - s.depth.windowStart) * s.geometry.encoderStep) s.depth.windowLength
  let o := overfeedAfter s.demand.feed s.ret.limit feed s.depth.overCount s.depth.overfeed
  { s.depth with
    lastFeed := feed, overCount := o.1, overfeed := o.2, windowStart := s.depth.count, windowLength := s.demand.feed.window
    windowTimer := some (s.inMs s.demand.feed.window) }

/-- The state once the window is measured, the feed governor told and the backlog taken (R45, R46, R142). -/
def windowed (s : State) : State :=
  let delta := (s.depth.count - s.depth.windowStart) * s.geometry.encoderStep
  let d := windowDepth s
  recomputeCapacity { s with
    depth := Governed d { d.reasons with overfeed := d.overfeed }
    ret := { s.ret with
      backlog := clamp 0 1000000 (s.ret.backlog + excavated s.geometry delta - removed s.geometry s.ret s.depth.windowLength) }
    links := raisedLinks
      (if d.feedHold = (Governed d { d.reasons with overfeed := d.overfeed }).feedHold then 0 else Flag.feedHold.only) s.links }

theorem feedWindow_eq (s : State) :
    feedWindow s = recomputeLimit (enterReturn (stateAtWindow s.demand.pump (windowed s).ret) (windowed s)) := by
  unfold feedWindow windowCompletion
  dsimp only
  rw [govern_eq]
  rfl

theorem afterReturn_feedHold {d e : DepthCounter} (line : d.feedHold = e.feedHold) (reasons : d.reasons = e.reasons)
    (st st' : ReturnState) : (afterReturn d st st').feedHold = (afterReturn e st st').feedHold := by
  unfold afterReturn
  split
  · exact line
  · rw [Governed, Governed, reasons]

/-- FEED_HOLD of a line that changes from `a` to `b` and on to `c`, with other flags between. -/
theorem raisedLinks_line (a b c : Bool) (x : FlagSet) (n : Links) :
    raisedLinks (flagsOfList (if b = c then [] else [.feedHold]))
      (raisedLinks x (raisedLinks (if a = b then 0 else Flag.feedHold.only) n))
      = raisedLinks (flagsOfList (if a = b ∧ b = c then [] else [.feedHold])) (raisedLinks x n) := by
  have twice : Flag.feedHold.only ||| (Flag.feedHold.only ||| x) = Flag.feedHold.only ||| x := by
    rw [← BitVec.or_assoc, BitVec.or_self]
  simp only [raisedLinks_raisedLinks]
  congr 1
  cases a <;> cases b <;> cases c <;> simp [BitVec.or_comm x, BitVec.or_assoc, twice]

/-- OVERFEED and its count after a window (R46). -/
theorem overfeedAfter_spec (f : FeedGroup) (limit feed count : Int) (set : Bool) :
    let n := if limit + f.tolerance < feed then min (count + 1) 8 else 0
    (overfeedAfter f limit feed count set).1 = n
    ∧ ((overfeedAfter f limit feed count set).2 = true ↔
        if limit + f.tolerance < feed then set = true ∨ f.overfeedWindows ≤ n else limit < feed ∧ set = true) := by
  unfold overfeedAfter
  by_cases above : limit + f.tolerance < feed
  · simp [above]
  · by_cases faster : limit < feed <;> simp [above, faster]

/-- Settles O31: the window measured, then the decision. -/
theorem feedWindowMeasuresAndBalances : Obligations.FeedWindowMeasuresAndBalances := by
  intro s due hs hd length
  refine completes_due (c := .feedWindowExpiry) hs hd ?_
  obtain ⟨st, hst⟩ : ∃ st, st = stateAtWindow s.demand.pump (windowed (s.reach due)).ret := ⟨_, rfl⟩
  have taken : eventRule .feedWindowExpiry (s.reach due) = { decided st (windowed (s.reach due)) with
      links := raisedLinks (flagsOfList (returnChange (windowed (s.reach due)) (decided st (windowed (s.reach due)))
        ++ holdChange (windowed (s.reach due)) (decided st (windowed (s.reach due))))) (windowed (s.reach due)).links } := by
    rw [hst]
    exact (feedWindow_eq (s.reach due)).trans (decision_eq (windowed (s.reach due)) (stateAtWindow_moves s.demand.pump _))
  generalize eventRule .feedWindowExpiry (s.reach due) = t at taken
  intro delta feed above n area excavated removed measured after
  have ret : t.ret = (decided st (windowed (s.reach due))).ret := by rw [taken]
  have state : t.ret.state = st := by rw [ret]; rfl
  have backlog : t.ret.backlog = max 0 (min 1000000 (s.ret.backlog + excavated - removed)) := by
    rw [ret]
    change clamp 0 1000000 (s.ret.backlog + excavated - Machine.removed s.geometry s.ret s.depth.windowLength) = _
    rw [removed_eq, clamp_eq (by decide)]
  have depth : t.depth = afterReturn (windowed (s.reach due)).depth s.ret.state t.ret.state := by
    rw [state, taken]; rfl
  have flagged : t.depth.overfeed = (windowDepth (s.reach due)).overfeed := by
    rw [depth]
    unfold afterReturn
    split <;> rfl
  have feed_eq : feedOf delta s.depth.windowLength = feed := clamp_eq (by decide) _
  have counted := overfeedAfter_spec s.demand.feed s.ret.limit feed s.depth.overCount s.depth.overfeed
  have judged : windowDepth (s.reach due) = { s.depth with
      lastFeed := feed
      overCount := n
      overfeed := (overfeedAfter s.demand.feed s.ret.limit feed s.depth.overCount s.depth.overfeed).2
      windowStart := s.depth.count
      windowLength := s.demand.feed.window
      windowTimer := some (max s.clock due + s.demand.feed.window.toNat * 1000) } := by
    have count : (overfeedAfter s.demand.feed s.ret.limit feed s.depth.overCount s.depth.overfeed).1 = n := counted.1
    rw [← count, ← feed_eq]
    rfl
  have overfeed : t.depth.overfeed = (overfeedAfter s.demand.feed s.ret.limit feed s.depth.overCount s.depth.overfeed).2 := by
    rw [flagged, judged]
  refine ⟨?_, ?_, ?_, ?_, ?_⟩
  · have tdepth : t.depth = { after with
        lastFeed := feed, overCount := n, overfeed := t.depth.overfeed, windowStart := s.depth.count
        windowLength := s.demand.feed.window
        windowTimer := some (max s.clock due + s.demand.feed.window.toNat * 1000) } := by
      refine depth.trans ?_
      change afterReturn (Governed (windowDepth (s.reach due)) { (windowDepth (s.reach due)).reasons with
        overfeed := (windowDepth (s.reach due)).overfeed }) s.ret.state t.ret.state = { afterReturn (Governed s.depth
          { s.depth.reasons with overfeed := t.depth.overfeed }) s.ret.state t.ret.state with
            lastFeed := feed, overCount := n, overfeed := t.depth.overfeed, windowStart := s.depth.count
            windowLength := s.demand.feed.window
            windowTimer := some (max s.clock due + s.demand.feed.window.toNat * 1000) }
      rw [judged, overfeed]
      unfold afterReturn
      split <;> rfl
    rw [← tdepth, ← backlog]
    have balance : t.ret = { s.ret with
        backlog := t.ret.backlog, capacity := t.ret.capacity, allowance := t.ret.allowance, limit := t.ret.limit
        state := t.ret.state } := by
      rw [ret]; rfl
    rw [← balance]
    refine state_eq ?_ ?_ ?_ ?_ ?_ rfl ?_ ?_ ?_ ?_ rfl ?_ rfl ?_ ?_ ?_ <;> rw [taken] <;> rfl
  · rw [overfeed]; exact counted.2
  · have decision := stateAtWindow_spec s.demand.pump (windowed (s.reach due)).ret
    rw [← hst, ← state] at decision
    have same : t.ret.backlog = (windowed (s.reach due)).ret.backlog := by rw [ret]; rfl
    rw [same]
    exact decision
  · refine recompute_agrees s t.ret ?_ ?_ ?_
    · rw [ret]; rfl
    · rw [ret]; rfl
    · rw [ret]; exact decided_limit st (windowed (s.reach due))
  · rw [linksKept_iff, raisedLinks_append]
    have reasons : measured.reasons = (windowed (s.reach due)).depth.reasons := by
      change { s.depth.reasons with overfeed := t.depth.overfeed }
        = { s.depth.reasons with overfeed := (windowDepth (s.reach due)).overfeed }
      rw [flagged]
    have line : measured.feedHold = (windowed (s.reach due)).depth.feedHold :=
      congrArg (fun r => (Governed s.depth r).feedHold) reasons
    have final : after.feedHold = t.depth.feedHold := by
      rw [depth]; exact afterReturn_feedHold line reasons _ _
    have links := congrArg State.links taken
    rw [raisedLinks_append] at links
    rw [line, final]
    refine links.trans (Eq.trans ?_ (raisedLinks_line s.depth.feedHold (windowed (s.reach due)).depth.feedHold t.depth.feedHold
      (flagsOfList (returnChange s t)) s.links))
    have returned : returnChange s t = returnChange (windowed (s.reach due)) (decided st (windowed (s.reach due))) := by
      rw [returnChange, state]; rfl
    rw [returned, show t.depth = (decided st (windowed (s.reach due))).depth by rw [taken]]
    rfl

end Sys2Proof.Machine
end

section
/-! Panels and the depth's reference: OPEN PANEL, ABANDON PANEL, EXTEND DEPTH (chapter 1) and SET DEPTH (R38). -/

namespace Sys2Proof.Machine

open Sys2Proof.Safety

/-! ## Fields of four bytes (12.2) -/

theorem unsignedOf_four (a b c d : Byte) : unsignedOf [a, b, c, d] = four a b c d := by
  simp only [unsignedOf, List.foldl_cons, List.foldl_nil, four]
  omega

theorem signedOf_four (a b c d : Byte) : signedOf [a, b, c, d] = signedFour a b c d := by
  have := a.isLt
  have := b.isLt
  have := c.isLt
  have := d.isLt
  unfold signedOf signedFour
  rw [unsignedOf_four]
  unfold four
  simp only [List.length_cons, List.length_nil]
  norm_num
  split <;> split <;> omega

/-! ## Changes told to the feed governor (R47) -/

/-- The change from `s` to `u`, with FEED_HOLD raised where the line changed. -/
def told (s u : State) : State := { u with links := raisedLinks (flagsOfList (holdChange s u)) s.links }

theorem govern_told (g : HoldReasons → HoldReasons) (s : State) :
    govern g s = told s { s with depth := Governed s.depth (g s.depth.reasons) } := by
  rw [govern_eq, told, flagsOfList_holdChange]

theorem setPanel_eq (p : PanelState) (s : State) : setPanel p s = told s
    { s with panel := p, depth := Governed s.depth { s.depth.reasons with panel := decide (p ≠ PanelState.active) } } :=
  govern_told _ _

theorem setFinal_eq (b : Bool) (s : State) : setFinal b s = told s
    { s with depth := { Governed s.depth { s.depth.reasons with final := b } with final := b } } :=
  govern_told _ _

theorem setReference_eq (ref : RefState) (s : State) : setReference ref s = told s
    { s with depth := { Governed s.depth { s.depth.reasons with reference := decide (ref = RefState.unreferenced) } with
                        ref := ref } } :=
  govern_told _ _

/-- A granted request whose rule is a change told to the feed governor. -/
theorem completes_told {c : Instr} {kind : Byte} {acc : Access} {s u : State} {l : Link} {f : Frame} {a : Answer}
    {post : State → Prop} (row : requestRow c = some (kind, acc)) (h : Granted kind l f s)
    (hb : barred s.demand.owner l acc = none)
    (hx : rowRule c l f.payload (takeHead l s) = (told (takeHead l s) { u with links := (takeHead l s).links }, a))
    (hp : ∀ t, t = { u with links := t.links } → Raised (holdChange s t) s t →
      Answered l f a (s.link l).mask false s t → post t) : Completes c s post := by
  refine completes_of_rule (fs := holdChange s u) row h hb hx ?_ fun t same raised answered => ?_
  · rw [told, flagsOfList_holdChange, flagsOfList_holdChange, takeHead_depth]
  · have line : holdChange s t = holdChange s u := by rw [same]; rfl
    exact hp t same (line ▸ raised) answered

/-! ## ABANDON PANEL (R12) and EXTEND DEPTH (R13) -/

theorem abandonPanelBody_of_open {s : State} (h : s.panel = .active ∨ s.panel = .closed) (l : Link) :
    abandonPanelBody l s = (setPanel .idle { s with table := s.table.emptied }, doneWith []) := by
  unfold abandonPanelBody
  split
  · rename_i e; rw [e] at h; exact absurd h (by decide)
  · rename_i e; rw [e] at h; exact absurd h (by decide)
  · rfl
  · rfl

/-- EXTEND DEPTH with a record that fits (R13). -/
theorem extendDesign_eq (g : Geometry) (s : State) : extendDesign g s = told s { s with
    geometry := g
    depth := if s.depth.count * g.encoderStep < (g.start + ((g.stations : Int) - 1) * g.spacing) * 1000
      then { Governed s.depth { s.depth.reasons with final := false } with final := false } else s.depth } := by
  have last : g.depthOf (g.stations - 1) = g.start + ((g.stations : Int) - 1) * g.spacing := by
    rw [Geometry.depthOf, Nat.cast_sub (stations_pos g), Nat.cast_one]
  unfold extendDesign
  dsimp only
  rw [last]
  change (if s.depth.count * g.encoderStep < (g.start + ((g.stations : Int) - 1) * g.spacing) * 1000 then _ else _) = _
  by_cases deeper : s.depth.count * g.encoderStep < (g.start + ((g.stations : Int) - 1) * g.spacing) * 1000
  · rw [if_pos deeper, if_pos deeper]
    exact setFinal_eq false { s with geometry := g }
  · have quiet : raisedLinks (flagsOfList []) s.links = s.links := raisedLinks_zero s.links
    rw [if_neg deeper, if_neg deeper, told, holdChange, if_pos rfl, quiet]

/-- Settles O25: the two requests by the panel state and the new design depth. -/
theorem abandonAndExtend : Obligations.AbandonAndExtend := by
  refine ⟨fun s f h hp => ?_, fun s f a b c d h hp => ?_⟩
  · have row : rowRule .abandonPanel .cab f.payload (takeHead .cab s) = abandonPanelBody .cab (takeHead .cab s) := by
      rw [hp]; exact emptyPayload_nil _ _ _
    have panel := takeHead_panel s .cab
    refine ⟨fun idle => ?_, fun closing => ?_, fun more => ?_⟩
    · refine refuses_of_rule (c := .abandonPanel) rfl h rfl (row.trans ?_)
      rw [abandonPanelBody, panel, idle]
    · refine refuses_of_rule (c := .abandonPanel) rfl h rfl (row.trans ?_)
      rw [abandonPanelBody, panel, closing]
    · have served : rowRule .abandonPanel .cab f.payload (takeHead .cab s)
          = (setPanel .idle { takeHead .cab s with table := (takeHead .cab s).table.emptied }, doneWith []) :=
        row.trans (abandonPanelBody_of_open (by rw [panel]; exact more) .cab)
      rw [setPanel_eq] at served
      refine completes_told (c := .abandonPanel) (u := { s with
        panel := .idle, table := s.table.emptied, depth := Governed s.depth { s.depth.reasons with panel := true } }) rfl h rfl
        served fun t same raised answered => ⟨?_, ?_, raised, answered⟩
      · rw [same]
      · rw [same]; exact emptied_spec s.table
  · intro design g fits
    have row : rowRule .extendDepth .cab f.payload (takeHead .cab s) = extendDepthBody .cab [a, b, c, d] (takeHead .cab s) := by
      rw [hp]; exact payloadOf_length rfl _ _ _
    have depth : unsignedAt [a, b, c, d] 0 4 = design := unsignedOf_four a b c d
    have record : ({ (takeHead .cab s).geometry with design := unsignedAt [a, b, c, d] 0 4 } : Geometry) = g := by
      rw [depth, takeHead_geometry]
    have body : extendDepthBody .cab [a, b, c, d] (takeHead .cab s) =
        if s.panel ≠ .active then (takeHead .cab s, refusal .wrongState)
        else if g.design ≤ s.geometry.design ∨ badDesign g then (takeHead .cab s, refusal .badValue (field 1 4))
        else (extendDesign g (takeHead .cab s), doneWith []) := by
      unfold extendDepthBody
      rw [record, takeHead_panel, takeHead_geometry]
    refine ⟨fun other => ?_, fun active unfit => ?_, fun active fit ordered => ?_⟩
    · exact refuses_of_rule (c := .extendDepth) rfl h rfl (row.trans (body.trans (if_pos other)))
    · refine refuses_of_rule (c := .extendDepth) rfl h rfl (row.trans (body.trans ?_))
      have bad : g.design ≤ s.geometry.design ∨ badDesign g = true := by
        by_contra fine
        obtain ⟨deeper, check⟩ := not_or.mp fine
        obtain ⟨-, span, count⟩ := badDesign_iff.mp (Bool.eq_false_of_not_eq_true check)
        exact unfit ⟨not_le.mp deeper, span, count⟩
      rw [if_neg (not_not.mpr active), if_pos bad]
      rfl
    · have good : ¬(g.design ≤ s.geometry.design ∨ badDesign g = true) := by
        obtain ⟨deeper, span, count⟩ := fit
        rw [badDesign_iff.mpr ⟨ordered, span, count⟩]
        exact not_or.mpr ⟨not_le.mpr deeper, Bool.false_ne_true⟩
      rw [if_neg (not_not.mpr active), if_neg good, extendDesign_eq] at body
      refine completes_told (c := .extendDepth) (u := { s with
        geometry := g
        depth := if s.depth.count * g.encoderStep < (g.start + ((g.stations : Int) - 1) * g.spacing) * 1000
          then { Governed s.depth { s.depth.reasons with final := false } with final := false } else s.depth }) rfl h rfl
        (row.trans (body.trans ?_)) fun t same raised answered => ⟨same, raised, answered⟩
      rw [takeHead_eq]
      rfl

/-! ## SET DEPTH (R38) -/

/-- The depth counter after a referencing to `mm` (R38). -/
def depthSet (mm : Int) (s : State) : DepthCounter :=
  { Governed s.depth { s.depth.reasons with reference := false } with
    count := nearestCount s.geometry (mm * 1000)
    windowStart := s.depth.windowStart + (nearestCount s.geometry (mm * 1000) - s.depth.count)
    ref := .referenced
    floor := if s.panel = .closing then s.depth.floor
      else floorAt s.geometry (nearestCount s.geometry (mm * 1000) * s.geometry.encoderStep) }

/-- A referencing within the range (R38). -/
theorem setDepthBody_eq (l : Link) {p : List Byte} {mm : Int} (s : State) (bytes : signedAt p 0 4 = mm)
    (h : ¬(mm < -100000 ∨ 400000 < mm)) : setDepthBody l p s =
    (told s { s with
      depth := depthSet mm s
      table := { s.table with acc := { sumX := 0, sumY := 0, sumT := 0, count := 0, clampedSeen := false } } },
     doneWith (field 4 (reportedDepth (nearestCount s.geometry (mm * 1000) * s.geometry.encoderStep)))) := by
  unfold setDepthBody
  dsimp only
  rw [bytes, if_neg h, setReference_eq]
  unfold depthSet
  by_cases closing : s.panel = .closing
  · rw [if_pos closing, if_pos (by exact closing)]
    rfl
  · rw [if_neg closing, if_neg (by exact closing)]
    rfl

/-- Settles O26. -/
theorem setDepthReferences : Obligations.SetDepthReferences := by
  intro s f a b c d h hp mm
  have row : rowRule .setDepth .cab f.payload (takeHead .cab s) = setDepthBody .cab [a, b, c, d] (takeHead .cab s) := by
    rw [hp]; exact payloadOf_length rfl _ _ _
  have bytes : signedAt [a, b, c, d] 0 4 = mm := signedOf_four a b c d
  refine ⟨fun outside => ?_, fun low high step => ?_⟩
  · refine refuses_of_rule (c := .setDepth) rfl h rfl (row.trans ?_)
    unfold setDepthBody
    rw [bytes]
    exact if_pos outside
  · have served := row.trans (setDepthBody_eq .cab (takeHead .cab s) bytes (by omega))
    refine completes_told (c := .setDepth) (u := { s with
      depth := depthSet mm s
      table := { s.table with acc := { sumX := 0, sumY := 0, sumT := 0, count := 0, clampedSeen := false } } }) rfl h rfl
      (served.trans (by rw [takeHead_eq]; rfl)) fun t same raised answered => ?_
    have depth : t.depth = depthSet mm s := by rw [same]
    have count : t.depth.count = nearestCount s.geometry (mm * 1000) := by rw [depth]; rfl
    refine ⟨?_, ?_, fun closing => ?_, fun other => ?_, raised, ?_⟩
    · rw [count]
      refine same.trans ?_
      rw [depth]
      rfl
    · rw [count]; exact nearestCount_spec step _
    · rw [depth]; exact if_pos closing
    · rw [count, depth]
      have floor : (depthSet mm s).floor = floorAt s.geometry (nearestCount s.geometry (mm * 1000) * s.geometry.encoderStep) :=
        if_neg other
      rw [floor]
      exact floorAt_spec _ _
    · have reported : ∀ x : Int, reportedDepth x = x / 1000 := fun x => Int.fdiv_eq_ediv_of_nonneg x (by decide)
      rw [count, ← reported, ← takeHead_geometry s .cab]
      exact answered

/-! ## OPEN PANEL (R6 to R8) -/

theorem badDesign_fieldOk {g : Geometry} (h : ∀ m, m < 4 → FieldOk g m) : badDesign g = false ↔ FieldOk g 4 := by
  obtain ⟨spacing, -⟩ : 100 ≤ g.spacing ∧ g.spacing ≤ 500 := h 2 (by decide)
  rw [badDesign_iff]
  refine and_congr_right fun ordered => and_congr_right fun _ => ?_
  rw [← stations_eq ordered (by omega)]
  exact Nat.cast_le.symm

/-- The check names the first field that is out of range (R3). -/
theorem firstBadField_some {g : Geometry} {n : Nat} (h : firstBadField g = some n) :
    ¬FieldOk g n ∧ ∀ m, m < n → FieldOk g m := by
  have step {bad : Bool} {k : Nat} {o : Option Nat} (ok : bad = false ↔ FieldOk g k) (before : ∀ m, m < k → FieldOk g m)
      (h : (if bad = true then some k else o) = some n)
      (rest : (∀ m, m < k + 1 → FieldOk g m) → o = some n → ¬FieldOk g n ∧ ∀ m, m < n → FieldOk g m) : ¬FieldOk g n ∧ ∀ m, m < n → FieldOk g m := by
    cases bad with
    | true =>
      have same : k = n := Option.some.inj h
      exact same ▸ ⟨fun fine => Bool.noConfusion (ok.mpr fine), before⟩
    | false => exact rest (Nat.forall_lt_succ_right.mpr ⟨before, ok.mp rfl⟩) h
  have base : ∀ m, m < 2 → FieldOk g m := fun m hm => by interval_cases m <;> trivial
  exact step outside_iff base h fun b h => step outside_iff b h fun b h => step (badDesign_fieldOk b) b h fun b h =>
    step outside_iff b h fun b h => step outside_iff b h fun b h => step outside_iff b h fun b h => step outside_iff b h
    fun b h => step outside_iff b h fun b h => step outside_iff b h fun b h => step outside_iff b h fun b h =>
    step outside_iff b h fun b h => step outside_iff b h fun b h => step outside_iff b h fun _ h => absurd h nofun

theorem firstBadField_iff {g : Geometry} {n : Nat} :
    firstBadField g = some n ↔ ¬FieldOk g n ∧ ∀ m, m < n → FieldOk g m := by
  refine ⟨firstBadField_some, fun ⟨bad, before⟩ => ?_⟩
  cases first : firstBadField g with
  | none => exact absurd (fieldOk_of_check first n) bad
  | some k =>
    obtain ⟨bad', before'⟩ := firstBadField_some first
    rcases lt_trichotomy k n with less | same | more
    · exact absurd (before k less) bad'
    · rw [same]
    · exact absurd (before' n more) bad

theorem firstBadField_none {g : Geometry} (h : ∀ n, FieldOk g n) : firstBadField g = none := by
  cases first : firstBadField g with
  | none => rfl
  | some k => exact absurd (h k) (firstBadField_some first).1

/-- What the opening of a panel leaves of the depth counter (R7, R8). -/
theorem openDepth_frame (g : Geometry) (b : Bool) (d : DepthCounter) :
    let e := openDepth g b d
    e = { d with final := false, count := e.count, windowStart := e.windowStart, ref := e.ref, floor := e.floor } := by
  unfold openDepth rescaled
  dsimp only
  repeat' split
  all_goals rfl

/-- The reasons after the opening of a panel (R7, R47). -/
def openReasons (b : Bool) (r : HoldReasons) : HoldReasons :=
  { r with panel := false, final := false, reference := b || r.reference }

/-- The governor told the opening of a panel: FEED_HOLD by the line's change, or, with the encoder step changed, by the
order chosen. -/
theorem openGovernor_eq (b : Bool) (s : State) : ∃ fs : List Flag, (fs = [] ∨ fs = [.feedHold])
    ∧ openGovernor b s = { s with
        depth := Governed s.depth (openReasons b s.depth.reasons)
        links := raisedLinks (flagsOfList fs) s.links
        draws := (openGovernor b s).draws }
    ∧ (b = false →
      fs = if s.depth.feedHold = (Governed s.depth (openReasons b s.depth.reasons)).feedHold then [] else [.feedHold]) := by
  have either (x y : Prop) [Decidable x] [Decidable y] : ∃ fs : List Flag, (fs = [] ∨ fs = [Flag.feedHold])
      ∧ ∀ n, raisedLinks (if x then 0 else Flag.feedHold.only) (raisedLinks (if y then 0 else Flag.feedHold.only) n)
        = raisedLinks (flagsOfList fs) n := by
    refine ⟨if x ∧ y then [] else [.feedHold], (em (x ∧ y)).imp (fun h => if_pos h) (fun h => if_neg h), fun n => ?_⟩
    rw [raisedLinks_raisedLinks]
    congr 1
    by_cases hx : x <;> by_cases hy : y <;> simp [hx, hy]
  cases b with
  | false =>
    refine ⟨_, ?_, ?_, fun _ => rfl⟩
    · split
      · exact .inl rfl
      · exact .inr rfl
    · rw [openGovernor_same, govern_told]
      rfl
  | true =>
    rw [openGovernor_changed]
    split
    · rw [govern_eq, govern_eq]
      obtain ⟨fs, some, flags⟩ := either
        ((Governed s.depth (openRemoval s.depth.reasons)).feedHold
          = (Governed s.depth (openReasons true s.depth.reasons)).feedHold)
        (s.depth.feedHold = (Governed s.depth (openRemoval s.depth.reasons)).feedHold)
      exact ⟨fs, some, by rw [← flags]; rfl, nofun⟩
    · rw [govern_eq, govern_eq]
      obtain ⟨fs, some, flags⟩ := either
        ((Governed s.depth { s.depth.reasons with reference := true }).feedHold
          = (Governed s.depth (openReasons true s.depth.reasons)).feedHold)
        (s.depth.feedHold = (Governed s.depth { s.depth.reasons with reference := true }).feedHold)
      exact ⟨fs, some, by rw [← flags]; rfl, nofun⟩

/-- The panel-open event, but for the feed governor (R7). -/
def opened (g : Geometry) (b : Bool) (s : State) : State :=
  { s with
    panel := .active, geometry := g, depth := openDepth g b s.depth, table := s.table.emptied, drives := TalliesZeroed s.drives
    ret := { s.ret with backlog := 0 } }

theorem opened_depth (g : Geometry) (b : Bool) (l : Link) (s : State) :
    (opened g b (takeHead l s)).depth = openDepth g b s.depth := by
  rw [← takeHead_depth s l]; rfl

/-- The bound of the internal depth (R35). -/
theorem withinBound_iff (um : Int) : withinBound um = true ↔ |um| ≤ 1000000000 := by
  rw [withinBound, Bool.and_eq_true, decide_eq_true_eq, decide_eq_true_eq, abs_le]
  rfl

theorem openDepth_same (g : Geometry) (d : DepthCounter) : openDepth g false d =
    if d.ref = .unreferenced then { d with final := false }
    else { d with final := false, floor := floorAt g (d.count * g.encoderStep) } := rfl

theorem openDepth_changed (g : Geometry) (d : DepthCounter) : openDepth g true d =
    if |d.count * g.encoderStep| ≤ 1000000000 then { d with final := false, ref := .unreferenced }
    else { d with final := false, count := 0, windowStart := d.windowStart - d.count, ref := .unreferenced } := by
  have within : withinBound (depthUm g d.count) = true ↔ |d.count * g.encoderStep| ≤ 1000000000 := withinBound_iff _
  change { rescaled g { d with final := false } with ref := .unreferenced } = _
  unfold rescaled
  by_cases inside : |d.count * g.encoderStep| ≤ 1000000000
  · rw [if_pos inside, if_pos (within.mpr inside)]
  · rw [if_neg inside, if_neg (mt within.mp inside)]

theorem opened_reasons (g : Geometry) (b : Bool) (s : State) : (opened g b s).depth.reasons = s.depth.reasons :=
  (openDepth_spec g b s.depth).1

/-- Settles O23. -/
theorem openPanelStartsAPanel : Obligations.OpenPanelStartsAPanel := by
  refine ⟨fun s l f h => ⟨fun other => ?_, fun cab length => ?_⟩, fun s f h length => ?_⟩
  · exact refuses_of_barred (exec_row (c := .openPanel) rfl s) h (cabOnly_barred _ other)
  · subst cab
    exact refuses_of_rule (c := .openPanel) rfl h rfl (payloadOf_length_ne length _ _ _)
  · intro g
    have row : rowRule .openPanel .cab f.payload (takeHead .cab s) = openPanelBody .cab f.payload (takeHead .cab s) :=
      payloadOf_length length _ _ _
    have body (h : s.panel = .idle ∨ s.panel = .closed) : openPanelBody .cab f.payload (takeHead .cab s)
        = match firstBadField g with
          | some n => (takeHead .cab s, refusal .badValue (field 1 n))
          | none => (openPanel g (takeHead .cab s), doneWith []) := by
      unfold openPanelBody
      exact if_neg (by rw [takeHead_panel]; rcases h with e | e <;> rw [e] <;> decide)
    refine ⟨fun busy => ?_, fun ready n bad before => ?_, fun ready good => ?_⟩
    · refine refuses_of_rule (c := .openPanel) rfl h rfl (row.trans (if_pos ?_))
      rw [takeHead_panel]; exact busy
    · refine refuses_of_rule (c := .openPanel) rfl h rfl (row.trans ((body ready).trans ?_))
      rw [firstBadField_iff.mpr ⟨bad, before⟩]
      exact congrArg (fun b => (takeHead .cab s, refusal .badValue b)) ((field_one n).trans (by rw [BitVec.ofInt_natCast]))
    · have served := row.trans (body ready)
      rw [firstBadField_none good] at served
      obtain ⟨b, hb⟩ : ∃ b, b = (g.encoderStep != s.geometry.encoderStep) := ⟨_, rfl⟩
      obtain ⟨fs, either, told, kept⟩ := openGovernor_eq b (opened g b (takeHead .cab s))
      have event : openPanel g (takeHead .cab s) = openGovernor b (opened g b (takeHead .cab s)) := by
        rw [hb, ← takeHead_geometry s .cab]; rfl
      refine completes_of_rule (c := .openPanel) (fs := fs) rfl h rfl (served.trans (congrArg (·, doneWith []) event))
        (congrArg State.links told) fun t same raised answered => ?_
      intro reasons
      have chosen : openReasons b s.depth.reasons = reasons := by
        rw [openReasons, hb]
        by_cases step : g.encoderStep = s.geometry.encoderStep <;> simp [reasons, step]
      have depth : t.depth = Governed (openDepth g b s.depth) reasons := by
        have told' := congrArg State.depth told
        rw [same]
        refine told'.trans ?_
        rw [opened_reasons, takeHead_depth, chosen, opened_depth]
      have frame := openDepth_frame g b s.depth
      have line : (openDepth g b s.depth).feedHold = s.depth.feedHold := congrArg (·.feedHold) frame
      refine ⟨?_, ?_, ?_, fun step => ?_, fun step => ?_, answered⟩
      · refine same.trans ?_
        apply state_eq
        case depth => rw [same]
        case draws => rw [same]
        case table => rw [same]
        case links => rfl
        all_goals rw [told]; simp [opened]
      · rw [same, told]
        change TableEmptied s.table (takeHead .cab s).table.emptied
        rw [takeHead_table]
        exact emptied_spec s.table
      · rw [depth]
        exact congrArg (fun d => Governed d reasons) frame
      · have unchanged : b = false := by rw [hb, step]; exact bne_self_eq_false _
        subst unchanged
        have hold : fs = holdChange s t := by
          rw [kept rfl, holdChange, depth, opened_reasons, takeHead_depth, chosen, opened_depth, line]
        refine ⟨?_, ?_, ?_, fun free => ?_, fun placed => ?_, hold ▸ raised⟩
        · rw [depth, openDepth_same]; split <;> rfl
        · rw [depth, openDepth_same]; split <;> rfl
        · rw [depth, openDepth_same]; split <;> rfl
        · rw [depth, openDepth_same, if_pos free]
          rfl
        · rw [depth, openDepth_same, if_neg placed]
          exact floorAt_spec _ _
      · have changed : b = true := by rw [hb]; exact bne_iff_ne.mpr step
        subst changed
        rw [depth, openDepth_changed]
        refine ⟨?_, ?_, ?_, ?_⟩
        · split <;> rfl
        · split <;> rfl
        · split <;> exact ⟨rfl, rfl⟩
        · rcases either with e | e
          · exact .inl (e ▸ raised)
          · exact .inr (e ▸ raised)

end Sys2Proof.Machine
end

section
/-! Encoder transitions (R35, R36, R40 to R43): the count, the re-arm of a rise, the crossing and the settlement line. -/

namespace Sys2Proof.Machine

open Sys2Proof.Safety

/-! ## Motions (R35) -/

theorem motionOf_down {p q : Nat} (h : q = (p + 1) % 4) : motionOf p q = .down := by
  unfold motionOf
  rw [if_neg (by omega), if_pos h]

theorem motionOf_up {p q : Nat} (h : p = (q + 1) % 4) : motionOf p q = .up := by
  unfold motionOf
  rw [if_neg (by omega), if_neg (by omega), if_pos h]

theorem motionOf_illegal {p q : Nat} (h : q = (p + 2) % 4) : motionOf p q = .illegal := by
  unfold motionOf
  rw [if_neg (by omega), if_neg (by omega), if_neg (by omega)]

/-- The state with new levels and the count moved by one. -/
def stepped (first second : Bool) (step : Int) (s : State) : State :=
  { s with depth := { s.depth with count := s.depth.count + step, lineA := first, lineB := second } }

/-- What one step down does beyond the count (R40, R42). -/
def stepDown (first second : Bool) (s : State) : State :=
  judgeSettlement (s.depth.count * s.geometry.encoderStep) ((s.depth.count + 1) * s.geometry.encoderStep)
    (judgeCrossing (s.depth.count * s.geometry.encoderStep) ((s.depth.count + 1) * s.geometry.encoderStep)
      (stepped first second 1 s))

theorem exec_encoder {s : State} (hs : s.resetLine = false) (first second : Bool) :
    exec (.encoderTransition first second) s = .next (encoderChange first second s) := by
  rw [exec_due (c := .encoderTransition first second) hs rfl, reach_clock_self]
  rfl

theorem exec_down {s : State} {first second : Bool} (h : StepsBy s first second 1) :
    exec (.encoderTransition first second) s = .next (stepDown first second s) := by
  obtain ⟨hs, inside, ⟨-, down⟩ | ⟨up, -⟩⟩ := h
  · rw [exec_encoder hs, encoderChange, motionOf_down down]
    exact congrArg Host.Outcome.next (if_pos ((withinBound_iff _).mpr inside))
  · exact absurd up (by decide)

theorem exec_up {s : State} {first second : Bool} (h : StepsBy s first second (-1)) :
    exec (.encoderTransition first second) s
      = .next (judgeRearm ((s.depth.count - 1) * s.geometry.encoderStep) (stepped first second (-1) s)) := by
  obtain ⟨hs, inside, ⟨down, -⟩ | ⟨-, up⟩⟩ := h
  · exact absurd down (by decide)
  · rw [exec_encoder hs, encoderChange, motionOf_up up]
    exact congrArg Host.Outcome.next (if_pos ((withinBound_iff _).mpr inside))

theorem exec_illegal {s : State} {first second : Bool} (hs : s.resetLine = false)
    (h : phaseOf first second = (phaseOf s.depth.lineA s.depth.lineB + 2) % 4
      ∨ (phaseOf first second = (phaseOf s.depth.lineA s.depth.lineB + 1) % 4
        ∧ ¬|(s.depth.count + 1) * s.geometry.encoderStep| ≤ 1000000000)
      ∨ (phaseOf s.depth.lineA s.depth.lineB = (phaseOf first second + 1) % 4
        ∧ ¬|(s.depth.count + (-1)) * s.geometry.encoderStep| ≤ 1000000000)) :
    exec (.encoderTransition first second) s = .next (illegalTransition (setLines first second s)) := by
  rw [exec_encoder hs, encoderChange]
  rcases h with both | ⟨down, beyond⟩ | ⟨up, beyond⟩
  · rw [motionOf_illegal both]
  · rw [motionOf_down down]
    exact congrArg Host.Outcome.next (if_neg (mt (withinBound_iff _).mp beyond))
  · rw [motionOf_up up]
    exact congrArg Host.Outcome.next (if_neg (mt (withinBound_iff _).mp beyond))

/-! ## The rise (R41) -/

theorem referenced_iff {d : DepthCounter} : d.referenced = true ↔ d.ref ≠ .unreferenced := bne_iff_ne

/-- Settles O30: the re-arm's condition. -/
theorem riseReArmsTheStation : Obligations.RiseReArmsTheStation := by
  intro s first second h up armed
  have condition : (s.panel = .active ∧ s.depth.referenced = true ∧ 0 < s.depth.floor
      ∧ (s.depth.count - 1) * s.geometry.encoderStep
        < (s.geometry.depthOf (s.depth.floor - 1) - s.geometry.repassHeight) * 1000) ↔ armed := by
    rw [referenced_iff]
    refine and_congr_right fun _ => and_congr_right fun _ => and_congr_right fun floor => ?_
    rw [Geometry.depthOf, Nat.cast_sub floor, Nat.cast_one]
  rw [exec_up h]
  refine ⟨fun yes => congrArg Host.Outcome.next ?_, fun no => congrArg Host.Outcome.next ?_⟩
  · exact if_pos (condition.mpr yes)
  · exact if_neg (mt condition.mp no)

/-! ## Settlement lines (R42) -/

/-- Whether one step down from `s` passes the settlement line of station k. -/
def PassesLine (s : State) (k : Nat) : Prop :=
  Passes s (s.geometry.start + k * s.geometry.spacing + s.geometry.settleDistance)

/-- With a record in force that passes the check, one step passes one settlement line at most (R42). -/
theorem passesLine_unique {s : State} (law : GeometryLaw s) {j k : Nat} (hj : PassesLine s j) (hk : PassesLine s k) : j = k := by
  obtain ⟨low, -⟩ : 100 ≤ s.geometry.spacing ∧ s.geometry.spacing ≤ 500 := fieldOk_of_check law 2
  obtain ⟨-, step⟩ : 10 ≤ s.geometry.encoderStep ∧ s.geometry.encoderStep ≤ 10000 := fieldOk_of_check law 8
  obtain ⟨j1, j2⟩ := hj
  obtain ⟨k1, k2⟩ := hk
  have near (m n : Nat) (h1 : s.depth.count * s.geometry.encoderStep
        < (s.geometry.start + m * s.geometry.spacing + s.geometry.settleDistance) * 1000)
      (h2 : (s.geometry.start + n * s.geometry.spacing + s.geometry.settleDistance) * 1000
        ≤ (s.depth.count + 1) * s.geometry.encoderStep) : n ≤ m := by
    by_contra more
    have apart : ((m : Int) + 1) * s.geometry.spacing ≤ n * s.geometry.spacing :=
      mul_le_mul_of_nonneg_right (by omega) (by omega)
    nlinarith
  exact le_antisymm (near k j k1 j2) (near j k j1 k2)

/-- A settlement line passed, judged on a state of the same panel, reference and geometry. -/
theorem judgeSettlement_of_line {s u : State} (law : GeometryLaw s) (geometry : u.geometry = s.geometry)
    (panel : u.panel = .active ∨ u.panel = .closing) (ref : u.depth.ref ≠ .unreferenced) {k : Nat}
    (inside : k < s.geometry.stations) (line : PassesLine s k) :
    judgeSettlement (s.depth.count * s.geometry.encoderStep) ((s.depth.count + 1) * s.geometry.encoderStep) u = settle k u := by
  have found : ((List.range u.geometry.stations).find? fun k =>
      s.depth.count * s.geometry.encoderStep < settlementLine u.geometry k
        && settlementLine u.geometry k ≤ (s.depth.count + 1) * s.geometry.encoderStep) = some k := by
    rw [geometry, List.find?_range_eq_some]
    refine ⟨?_, List.mem_range.mpr inside, fun j hj => ?_⟩
    · rw [Bool.and_eq_true, decide_eq_true_eq, decide_eq_true_eq]
      exact line
    · rw [Bool.not_eq_true', Bool.eq_false_iff, ne_eq, Bool.and_eq_true, decide_eq_true_eq, decide_eq_true_eq]
      exact fun other => hj.ne (passesLine_unique law other line)
  unfold judgeSettlement
  rw [if_pos ⟨panel, referenced_iff.mpr ref⟩, found]

theorem judgeSettlement_of_none {s u : State} (geometry : u.geometry = s.geometry)
    (none : ∀ k, k < s.geometry.stations → ¬PassesLine s k) :
    judgeSettlement (s.depth.count * s.geometry.encoderStep) ((s.depth.count + 1) * s.geometry.encoderStep) u = u := by
  have found : ((List.range u.geometry.stations).find? fun k =>
      s.depth.count * s.geometry.encoderStep < settlementLine u.geometry k
        && settlementLine u.geometry k ≤ (s.depth.count + 1) * s.geometry.encoderStep) = Option.none := by
    rw [geometry, List.find?_eq_none]
    intro k hk
    rw [Bool.and_eq_true, decide_eq_true_eq, decide_eq_true_eq]
    exact none k (List.mem_range.mp hk)
  unfold judgeSettlement
  rw [found]
  exact ite_self _

/-! ## Crossings (R40, R43) -/

/-- Whether one step down from `s` passes the depth of the floor station. -/
def PassesFloor (s : State) : Prop := Passes s (s.geometry.start + s.depth.floor * s.geometry.spacing)

/-- The state that the crossing of the floor station is taken on: the count moved, the floor advanced (R40). -/
def advanced (first second : Bool) (s : State) : State :=
  { s with depth := { s.depth with count := s.depth.count + 1, lineA := first, lineB := second, floor := s.depth.floor + 1 } }

/-- The state after the crossing of the floor station (R40, R43). -/
def crossingState (first second : Bool) (s : State) : State :=
  let c := crossing s.depth.floor s.depth.ref (advanced first second s)
  if s.depth.floor + 1 = s.geometry.stations then setFinal true (raise .finalDepth c) else c

theorem judgeCrossing_pos {s : State} (first second : Bool) (panel : s.panel = .active) (ref : s.depth.ref ≠ .unreferenced)
    (below : s.depth.floor < s.geometry.stations) (pass : PassesFloor s) :
    judgeCrossing (s.depth.count * s.geometry.encoderStep) ((s.depth.count + 1) * s.geometry.encoderStep)
      (stepped first second 1 s) = crossingState first second s := by
  obtain ⟨above, under⟩ := pass
  have stations : (crossing s.depth.floor s.depth.ref (advanced first second s)).geometry.stations = s.geometry.stations :=
    congrArg Geometry.stations (crossing_geometry s.depth.floor s.depth.ref (advanced first second s))
  exact (if_pos ⟨panel, referenced_iff.mpr ref, below, above, under⟩).trans
    (if_congr (iff_of_eq (congrArg (s.depth.floor + 1 = ·) stations)) rfl rfl)

theorem judgeCrossing_neg {s : State} (first second : Bool)
    (none : ¬(s.panel = .active ∧ s.depth.ref ≠ .unreferenced ∧ s.depth.floor < s.geometry.stations ∧ PassesFloor s)) :
    judgeCrossing (s.depth.count * s.geometry.encoderStep) ((s.depth.count + 1) * s.geometry.encoderStep)
      (stepped first second 1 s) = stepped first second 1 s :=
  if_neg fun ⟨panel, ref, below, above, under⟩ => none ⟨panel, referenced_iff.mp ref, below, above, under⟩

/-- Settles O29: without a crossing the line is judged on the counted state. -/
theorem settlementLineSettlesTheRecord : Obligations.SettlementLineSettlesTheRecord := by
  intro s first second k h panel ref law table inside line noCrossing
  refine ⟨_, exec_down h, ?_⟩
  unfold stepDown
  rw [judgeCrossing_neg first second fun ⟨active, _, below, pass⟩ => noCrossing active below pass,
    judgeSettlement_of_line (u := stepped first second 1 s) law rfl panel ref inside line]
  exact settle_spec (u := stepped first second 1 s) table.1 k

/-! ## The count (R35, R36) -/

theorem crossing_frame (k : Nat) (ref : RefState) (s : State) :
    crossing k ref s = { s with table := (crossing k ref s).table } := by
  unfold crossing
  split
  · rfl
  · dsimp only
    split <;> rfl

theorem judgeSettlement_frame (b a : Int) (s : State) :
    (judgeSettlement b a s).depth = s.depth := judgeSettlement_touches b a s .depth (by decide)

/-- A step down keeps the counted levels, count and reference state. -/
theorem judgeCrossing_counter (b a : Int) (s : State) :
    (judgeCrossing b a s).depth.count = s.depth.count ∧ (judgeCrossing b a s).depth.lineA = s.depth.lineA
    ∧ (judgeCrossing b a s).depth.lineB = s.depth.lineB ∧ (judgeCrossing b a s).depth.ref = s.depth.ref := by
  unfold judgeCrossing
  dsimp only
  split
  · rw [crossing_frame]
    split
    · rw [setFinal_eq]
      exact ⟨rfl, rfl, rfl, rfl⟩
    · exact ⟨rfl, rfl, rfl, rfl⟩
  · exact ⟨rfl, rfl, rfl, rfl⟩

/-- An illegal transition, with the levels taken (R36). -/
theorem illegalTransition_spec (first second : Bool) (s : State) :
    let t := illegalTransition (setLines first second s)
    t = { s with
      depth := { s.depth with
        lineA := first, lineB := second, ref := if s.depth.ref = .referenced then RefState.suspect else s.depth.ref
        reasons := t.depth.reasons, feedHold := t.depth.feedHold }
      links := t.links }
    ∧ (FeedHoldLaw s → t.depth.reasons = s.depth.reasons ∧ t.depth.feedHold = s.depth.feedHold
        ∧ LinksKept [.depthFault] s t) := by
  have raised : raisedLinks (flagsOfList [.depthFault]) s.links = raisedLinks Flag.depthFault.only s.links := by
    rw [flagsOfList_cons, flagsOfList_nil]; exact congrArg (raisedLinks · s.links) BitVec.or_zero
  unfold illegalTransition
  rw [raise_eq]
  by_cases placed : s.depth.ref = .referenced
  · rw [if_pos placed]
    dsimp only
    rw [if_pos (by exact placed), setReference_eq]
    refine ⟨rfl, fun law => ?_⟩
    have reasons : { s.depth.reasons with reference := decide (RefState.suspect = RefState.unreferenced) } = s.depth.reasons := by
      have same : s.depth.reasons.reference = false := by
        rw [((feedHoldLaw_iff s).mp law).reasons]
        exact decide_eq_false (by rw [placed]; nofun)
      exact congrArg (fun b => { s.depth.reasons with reference := b }) same.symm
    have line : (Governed s.depth { s.depth.reasons with
        reference := decide (RefState.suspect = RefState.unreferenced) }).feedHold = s.depth.feedHold := by
      rw [reasons, ((feedHoldLaw_iff s).mp law).reasons]
      exact (congrArg (·.feedHold) ((feedHoldLaw_iff s).mp law)).symm
    refine ⟨reasons, line, (linksKept_iff _ _ _).mpr ?_⟩
    rw [told, holdChange, if_pos (by exact line.symm), flagsOfList_nil, raised]
    exact raisedLinks_zero _
  · rw [if_neg placed]
    dsimp only
    rw [if_neg (by exact placed)]
    exact ⟨rfl, fun _ => ⟨rfl, rfl, (linksKept_iff _ _ _).mpr raised.symm⟩⟩

/-- Settles O27. -/
theorem encoderMovesTheCount : Obligations.EncoderMovesTheCount := by
  intro s first second hs before after counted moves illegal
  have wrong (h : after = (before + 2) % 4 ∨ (after = (before + 1) % 4 ∧ ¬counted 1)
      ∨ (before = (after + 1) % 4 ∧ ¬counted (-1))) : illegal :=
    ⟨_, exec_illegal hs h, illegalTransition_spec first second s⟩
  refine ⟨fun down inside => ?_, fun h noCrossing noLine => ?_, fun up inside => ?_, fun h => wrong (.inl h),
    fun h b => wrong (.inr (.inl ⟨h, b⟩)), fun h b => wrong (.inr (.inr ⟨h, b⟩)), fun same => ?_⟩
  · refine ⟨_, exec_down ⟨hs, inside, .inl ⟨rfl, down⟩⟩, ?_⟩
    have kept := judgeCrossing_counter (s.depth.count * s.geometry.encoderStep) ((s.depth.count + 1) * s.geometry.encoderStep)
      (stepped first second 1 s)
    rw [← judgeSettlement_frame (s.depth.count * s.geometry.encoderStep) ((s.depth.count + 1) * s.geometry.encoderStep)] at kept
    obtain ⟨count, lineA, lineB, ref⟩ := kept
    refine ⟨count, lineA, lineB, ref, fun idle => ?_⟩
    unfold stepDown
    rw [judgeCrossing_neg first second fun ⟨active, placed, _⟩ => idle.elim (fun h => h.1 active) placed]
    exact if_neg fun ⟨panel, placed⟩ =>
      idle.elim (fun h => panel.elim h.1 h.2) (referenced_iff.mp placed)
  · rw [exec_down h]
    unfold stepDown
    rw [judgeCrossing_neg first second fun ⟨active, _, below, pass⟩ => noCrossing active below pass,
      judgeSettlement_of_none (s := s) (u := stepped first second 1 s) rfl noLine]
    rfl
  · refine ⟨_, exec_up ⟨hs, inside, .inr ⟨rfl, up⟩⟩, ?_⟩
    unfold judgeRearm
    dsimp only
    split
    · rename_i armed
      exact ⟨rfl, rfl, rfl, rfl, fun idle => idle.elim (fun h => absurd armed.1 h.1) fun h =>
        absurd h (referenced_iff.mp armed.2.1)⟩
    · exact ⟨rfl, rfl, rfl, rfl, fun _ => rfl⟩
  · have levels : first = s.depth.lineA ∧ second = s.depth.lineB := by
      revert same
      change phaseOf first second = phaseOf s.depth.lineA s.depth.lineB → _
      cases first <;> cases second <;> cases s.depth.lineA <;> cases s.depth.lineB <;> decide
    rw [exec_encoder hs, encoderChange, levels.1, levels.2, motionOf, if_pos rfl]
    rfl

/-! ## The record of a crossing (R53, R54, R58, R59, R61) -/

theorem means_spec (s : State) :
    s.table.means.2.1 = s.table.acc.count
    ∧ (s.table.acc.count ≠ 0 →
      RoundsTo s.table.acc.sumX s.table.acc.count s.table.means.1.1 ∧ RoundsTo s.table.acc.sumY s.table.acc.count s.table.means.1.2.1
      ∧ RoundsTo s.table.acc.sumT s.table.acc.count s.table.means.1.2.2
      ∧ s.table.means.2.2.1 = false ∧ s.table.means.2.2.2 = s.table.acc.clampedSeen)
    ∧ (s.table.acc.count = 0 → s.table.means.2.2.1 = true) := by
  unfold StationTable.means
  by_cases none : s.table.acc.count = 0
  · rw [if_neg (not_not.mpr none)]
    refine ⟨?_, fun some => absurd none some, fun _ => ?_⟩
    · rw [none]; split <;> rfl
    · split <;> rfl
  · rw [if_pos none]
    have some : (0 : Int) < s.table.acc.count := by omega
    exact ⟨rfl, fun _ => ⟨roundAway_roundsTo _ some, roundAway_roundsTo _ some, roundAway_roundsTo _ some, rfl, rfl⟩,
      fun h => absurd h none⟩

/-- The record that a crossing of k builds, current or stale. -/
theorem crossed_spec {s : State} (ordered : Ordered s.table.records) (k : Nat) (stale : Bool) :
    CrossedRecord s k { crossed k s.depth.ref s with stale := stale } := by
  obtain ⟨samples, sampled, unsampled⟩ := means_spec s
  have offsets := withOffset_agrees ordered s.geometry { crossingRecord k s.depth.ref s with stale := stale }
  have gap := withOffset_gap ordered s.geometry { crossingRecord k s.depth.ref s with stale := stale }
  refine ⟨rfl, rfl, samples, sampled, fun empty => ⟨unsampled empty, ?_⟩, fun q hq hk => ?_, fun absent => ?_, ?_, rfl, rfl, rfl, rfl,
    rfl, rfl, offsets, gap⟩
  · have last : s.table.means = match s.table.lastIncl with
        | some i => ((i.ix.value, i.iy.value, i.tw.value), 0, true, i.saturated)
        | none => ((0, 0, 0), 0, true, false) := by
      unfold StationTable.means
      exact if_neg (not_not.mpr empty)
    cases incl : s.table.lastIncl with
    | none =>
      rw [incl] at last
      exact ⟨congrArg (·.1.1) last, congrArg (·.1.2.1) last, congrArg (·.1.2.2) last, congrArg (·.2.2.2) last⟩
    | some i =>
      rw [incl] at last
      exact ⟨congrArg (·.1.1) last, congrArg (·.1.2.1) last, congrArg (·.1.2.2) last, congrArg (·.2.2.2) last⟩
  · have found : findStation s.table.records k = some q := (findStation_iff ordered).mpr ⟨hq, hk⟩
    constructor
    · change (match findStation s.table.records k with | some r => min (r.passCount + 1) 15 | none => 1) = _
      rw [found]
    · change (findStation s.table.records k).isSome = true
      rw [found]; rfl
  · have found : findStation s.table.records k = none := findStation_none.mpr absent
    constructor
    · change (match findStation s.table.records k with | some r => min (r.passCount + 1) 15 | none => 1) = _
      rw [found]
    · change (findStation s.table.records k).isSome = false
      rw [found]; rfl
  · exact decide_eq_true_iff

theorem invalidated_congr {a b : Query → Prop} {h h' : Hold} (e : ∀ q, a q ↔ b q) (g : Invalidated a h h') : Invalidated b h h' :=
  (funext fun q => propext (e q) : a = b) ▸ g

/-- The table after the crossing of k, in the terms of R58 to R65, R71 and R76. -/
structure CrossedTable (s : State) (k : Nat) (ahead : Prop) (t : StationTable) : Prop where
  frame : t = { s.table with
    records := t.records, acc := { sumX := 0, sumY := 0, sumT := 0, count := 0, clampedSeen := false }
    reference := some k, walker := t.walker, summary := t.summary
    holdCab := t.holdCab, holdPlant := t.holdPlant, holdRecord := t.holdRecord }
  record : ∃ r ∈ t.records, CrossedRecord s k r ∧ (r.stale = false ↔ ahead)
  others : ∀ q, q.index ≠ k → (q ∈ t.records ↔ ∃ o ∈ s.table.records,
    (ahead ∧ k < o.index → q = { o with stale := true }) ∧ (¬(ahead ∧ k < o.index) → q = o))
  ordered : t.records.Pairwise (fun r q => r.index < q.index)
  started : ahead → IsWalkerAbove t.records k s.clock t.walker
  kept : ¬ahead → t.walker = s.table.walker
  summary : t.summary = summaryOf t.records
  holds : ∀ l, Invalidated (fun q => InRange q k ∨ (ahead ∧ ∃ o ∈ s.table.records, k < o.index ∧ InRange q o.index))
    (s.table.hold l) (t.hold l)

theorem crossing_spec {s : State} (panel : s.panel = .active) (ordered : Ordered s.table.records) (k : Nat) :
    CrossedTable s k (∀ x, s.table.walker = some x → k < x.cursor) (crossing k s.depth.ref s).table := by
  have table := crossing_table k s.depth.ref panel
  have placed (b : Bool) := ordered_putStation ordered { crossed k s.depth.ref s with stale := b }
  by_cases a : crossesAhead s.table.walker k = true
  · have ahead := crossesAhead_iff.mp a
    rw [if_pos a] at table
    rw [table]
    have rest := ordered_staleAbove (placed false) k
    have mem (q : Station) : q ∈ staleAbove k (putStation (crossed k s.depth.ref s) s.table.records) ↔ ∃ o,
        (o = crossed k s.depth.ref s ∨ (o ∈ s.table.records ∧ o.index ≠ k))
        ∧ q = if k < o.index then { o with stale := true } else o := by
      simp only [mem_staleAbove, mem_putStation ordered]
      rfl
    refine ⟨rfl, ⟨crossed k s.depth.ref s, (mem _).mpr ⟨_, .inl rfl, (if_neg (lt_irrefl k)).symm⟩, crossed_spec ordered k false,
      iff_of_true rfl ahead⟩, fun q hq => ?_, rest, fun _ => isWalkerAbove_map rest k s.clock, fun behind => absurd ahead behind,
      rfl, fun l => ?_⟩
    · refine (mem q).trans ⟨?_, ?_⟩
      · rintro ⟨o, rfl | ⟨ho, -⟩, e⟩
        · rw [if_neg (by exact lt_irrefl k)] at e
          exact absurd (congrArg (·.index) e) hq
        · exact ⟨o, ho, fun ⟨_, above⟩ => e.trans (if_pos above), fun other => e.trans (if_neg fun above => other ⟨ahead, above⟩)⟩
      · rintro ⟨o, ho, above, other⟩
        by_cases deep : k < o.index
        · exact ⟨o, .inr ⟨ho, deep.ne'⟩, (above ⟨ahead, deep⟩).trans (if_pos deep).symm⟩
        · have same := other fun g => deep g.2
          exact ⟨o, .inr ⟨ho, same ▸ hq⟩, same.trans (if_neg deep).symm⟩
    · rw [mapHolds_hold]
      refine invalidated_congr (fun q => ?_) (invalidate_spec _ _)
      have indices (j : Nat) : j ∈ indicesAbove k (staleAbove k (putStation (crossed k s.depth.ref s) s.table.records))
          ↔ ∃ o ∈ s.table.records, k < o.index ∧ o.index = j := by
        simp only [indicesAbove, List.mem_map, List.mem_filter, decide_eq_true_eq, mem]
        constructor
        · rintro ⟨r, ⟨⟨o, rfl | ⟨ho, -⟩, rfl⟩, above⟩, rfl⟩
          · rw [if_neg (by exact lt_irrefl k)] at above
            exact absurd above (lt_irrefl k)
          · have same : (if k < o.index then { o with stale := true } else o).index = o.index := by split <;> rfl
            rw [same] at above ⊢
            exact ⟨o, ho, above, rfl⟩
        · rintro ⟨o, ho, above, rfl⟩
          exact ⟨{ o with stale := true }, ⟨⟨o, .inr ⟨ho, above.ne'⟩, (if_pos above).symm⟩, above⟩, rfl⟩
      simp only [List.exists_mem_cons_iff, indices]
      refine or_congr_right ⟨?_, ?_⟩
      · rintro ⟨j, ⟨o, ho, above, rfl⟩, inside⟩
        exact ⟨ahead, o, ho, above, inside⟩
      · rintro ⟨-, o, ho, above, inside⟩
        exact ⟨o.index, ⟨o, ho, above, rfl⟩, inside⟩
  · have behind := mt crossesAhead_iff.mpr a
    rw [if_neg a] at table
    rw [table]
    refine ⟨rfl, ⟨{ crossed k s.depth.ref s with stale := true }, (mem_putStation ordered _ _).mpr (.inl rfl),
      crossed_spec ordered k true, iff_of_false nofun behind⟩, fun q hq => ?_, placed true, fun ahead => absurd ahead behind,
      fun _ => rfl, rfl, fun l => ?_⟩
    · refine (mem_putStation ordered _ _).trans ⟨?_, ?_⟩
      · rintro (rfl | ⟨mem, -⟩)
        · exact absurd rfl hq
        · exact ⟨q, mem, fun g => absurd g.1 behind, fun _ => rfl⟩
      · rintro ⟨o, ho, -, same⟩
        rw [same fun g => behind g.1] at hq ⊢
        exact .inr ⟨ho, hq⟩
    · rw [mapHolds_hold]
      refine invalidated_congr (fun q => ?_) (invalidate_spec _ _)
      simp only [List.mem_singleton, exists_eq_left]
      exact (or_iff_left fun g => behind g.1).symm

/-- The whole state after the crossing of the floor station (R40, R43). -/
theorem crossingState_spec (first second : Bool) (s : State) :
    let u := crossingState first second s
    u = { s with
      depth := { (if s.depth.floor + 1 = s.geometry.stations then
          { Governed s.depth { s.depth.reasons with final := true } with final := true } else s.depth) with
        count := s.depth.count + 1, lineA := first, lineB := second, floor := s.depth.floor + 1 }
      table := (crossing s.depth.floor s.depth.ref (advanced first second s)).table
      links := u.links }
    ∧ LinksKept (if s.depth.floor + 1 = s.geometry.stations then .finalDepth :: holdChange s u else []) s u := by
  have frame := crossing_frame s.depth.floor s.depth.ref (advanced first second s)
  unfold crossingState
  dsimp only
  by_cases last : s.depth.floor + 1 = s.geometry.stations
  · rw [if_pos last, if_pos last, if_pos last, frame, raise_eq, setFinal_eq]
    refine ⟨rfl, (linksKept_iff _ _ _).mpr ?_⟩
    rw [flagsOfList_cons, ← raisedLinks_raisedLinks]
    rfl
  · rw [if_neg last, if_neg last, if_neg last, frame]
    exact ⟨rfl, linksKept_refl rfl⟩

/-- Settles O28: the crossing, and the settlement line judged on the state it left. -/
theorem crossingBuildsTheRecord : Obligations.CrossingBuildsTheRecord := by
  intro s first second h panel ref table below pass k ahead last passes
  refine ⟨_, exec_down h, ?_⟩
  have facts : CrossedTable (advanced first second s) s.depth.floor ahead
      (crossing s.depth.floor s.depth.ref (advanced first second s)).table :=
    crossing_spec (s := advanced first second s) panel table.1 s.depth.floor
  obtain ⟨whole, links⟩ := crossingState_spec first second s
  unfold stepDown
  rw [judgeCrossing_pos first second panel ref below pass]
  generalize crossingState first second s = u at *
  generalize (crossing s.depth.floor s.depth.ref (advanced first second s)).table = after at *
  have table' : after = u.table := by rw [whole]
  subst table'
  obtain ⟨frame, record, others, ordered, started, kept, summary, holds⟩ := facts
  have settles (j : Nat) : SettlesAt j u (settle j u) := settle_spec ordered j
  have geometry : u.geometry = s.geometry := by rw [whole]
  have active : u.panel = .active := by rw [whole]; exact panel
  have placed : u.depth.ref ≠ .unreferenced := by rw [whole]; dsimp only; split <;> exact ref
  refine ⟨u, ?_, links, record, fun q hq => (others q hq).trans ?_, ordered, started, kept, summary, holds, fun none => ?_,
    fun law j hj => ?_⟩
  · refine whole.trans ?_
    exact congrArg (fun x => { s with
      depth := { (if last then { Governed s.depth { s.depth.reasons with final := true } with final := true } else s.depth) with
        count := s.depth.count + 1, lineA := first, lineB := second, floor := k + 1 }
      table := x
      links := u.links }) frame
  · refine exists_congr fun o => and_congr_right fun _ => ?_
    by_cases up : ahead ∧ k < o.index
    · rw [if_pos up]
      exact ⟨fun g => g.1 up, fun e => ⟨fun _ => e, fun n => absurd up n⟩⟩
    · rw [if_neg up]
      exact ⟨fun g => g.2 up, fun e => ⟨fun y => absurd y up, fun _ => e⟩⟩
  · exact judgeSettlement_of_none geometry fun j inside line => none j ⟨inside, line⟩
  · obtain ⟨inside, line⟩ := hj
    rw [judgeSettlement_of_line law geometry (.inl active) placed inside line]
    exact settles j

end Sys2Proof.Machine
end

section
/-! The settle stage of a close and the restitch step (R10, R66, R68, R70, R71, R76): what settling every OPEN record does,
and the two obligations that end in it. -/

namespace Sys2Proof.Machine

open Sys2Proof.Safety

/-! ## Lookup and entries in a changed table -/

theorem findStation_map {f : Station → Station} (hf : ∀ r, (f r).index = r.index) (rs : List Station) (k : Nat) :
    findStation (rs.map f) k = (findStation rs k).map f := by
  simp only [findStation, List.find?_map, Function.comp_def, hf]

theorem ordered_map {f : Station → Station} (hf : ∀ r, (f r).index = r.index) {rs : List Station} (h : Ordered rs) :
    Ordered (rs.map f) :=
  List.pairwise_map.mpr (h.imp fun {a b} (lt : a.index < b.index) => by rw [hf, hf]; exact lt)

/-- Every present record of the range is SETTLED and not stale (R74). -/
def RangeReady (rs : List Station) (q : Query) : Prop :=
  ∀ r ∈ rs, q.first ≤ r.index → r.index < q.first + q.range → r.state = .settled ∧ r.stale = false

/-- Two reviews in a row, between which only OPEN records change, are one review against the table that they leave. -/
theorem reviewed_trans {f : Station → Station} {rs : List Station} {h h' h'' : Hold} (index : ∀ r, (f r).index = r.index)
    (settled : ∀ r, r.state = .settled → f r = r) (first : Reviewed rs h h') (second : Reviewed (rs.map f) h' h'') :
    Reviewed (rs.map f) h h'' := by
  refine ⟨fun q hq => ?_, fun other => ?_⟩
  · by_cases ready : RangeReady rs q
    · have prepared := ((first.1 q hq).1 ready)
      have kept : h'' = h' := second.2 fun _ e => Hold.noConfusion (prepared.symm.trans e)
      have still : RangeReady (rs.map f) q := by
        intro r hr low high
        obtain ⟨p, hp, rfl⟩ := List.mem_map.mp hr
        rw [index] at low high
        obtain ⟨done, fresh⟩ := ready p hp low high
        rw [settled p done]
        exact ⟨done, fresh⟩
      refine ⟨fun _ => ?_, fun n => absurd still n⟩
      rw [kept, prepared]
      refine congrArg (Hold.prepared q) (List.map_congr_left fun i hi => stationEntry_congr ?_)
      rw [findStation_map index]
      cases e : findStation rs (q.first + i) with
      | none => rfl
      | some p =>
        obtain ⟨hp, at_⟩ := findStation_mem e
        have inside := List.mem_range.mp hi
        rw [Option.map_some, settled p (ready p hp (by omega) (by omega)).1]
    · exact (first.1 q hq).2 ready ▸ second.1 q ((first.1 q hq).2 ready ▸ hq)
  · have kept := first.2 other
    exact kept ▸ second.2 (kept ▸ other)

/-- A hold that waits only in a range that is not ready stands reviewed. -/
theorem reviewed_self {rs : List Station} {h : Hold} (waits : ∀ q, h = .waiting q → ¬RangeReady rs q) : Reviewed rs h h :=
  ⟨fun q hq => ⟨fun ready => absurd ready (waits q hq), fun _ => rfl⟩, fun _ => rfl⟩

/-! ## The mark of the first exceedance -/

/-- TOLERANCE over two changes that set first-exceedance marks and clear none. -/
theorem raisedLinks_tolerance {x x' x'' y y' y'' : Bool} (hx : x = true → x' = true) (hx' : x' = true → x'' = true)
    (hy : y = true → y' = true) (hy' : y' = true → y'' = true) (n : Links) :
    raisedLinks (if x' = x'' ∧ y' = y'' then 0 else Flag.tolerance.only)
        (raisedLinks (if x = x' ∧ y = y' then 0 else Flag.tolerance.only) n)
      = raisedLinks (if x = x'' ∧ y = y'' then 0 else Flag.tolerance.only) n := by
  rw [raisedLinks_raisedLinks]
  congr 1
  revert hx hx' hy hy'
  revert x x' x'' y y' y''
  decide

/-! ## Settling stations one after the other -/

/-- A record once the stations of a list are settled. -/
def settledIn (g : Geometry) (ks : List Nat) (r : Station) : Station :=
  if r.index ∈ ks ∧ r.state = .opened then SettledRecord g r else r

@[simp] theorem settledIn_index (g : Geometry) (ks : List Nat) (r : Station) : (settledIn g ks r).index = r.index := by
  unfold settledIn; split <;> rfl

theorem settledIn_settled {g : Geometry} {ks : List Nat} {r : Station} (h : r.state = .settled) : settledIn g ks r = r :=
  if_neg fun c => RecordState.noConfusion (h.symm.trans c.2)

theorem settledIn_stale (g : Geometry) (ks : List Nat) (r : Station) : (settledIn g ks r).stale = r.stale := by
  unfold settledIn; split <;> rfl

/-- Settling a station and then those of a list settles them all. -/
theorem settledIn_settledIn (g : Geometry) (k : Nat) (ks : List Nat) (r : Station) :
    settledIn g ks (settledIn g [k] r) = settledIn g (k :: ks) r := by
  by_cases here : r.index = k ∧ r.state = .opened
  · have one : settledIn g [k] r = SettledRecord g r := if_pos ⟨List.mem_singleton.mpr here.1, here.2⟩
    rw [one, settledIn_settled rfl]
    exact (if_pos ⟨List.mem_cons.mpr (.inl here.1), here.2⟩).symm
  · have one : settledIn g [k] r = r := if_neg fun c => here ⟨List.mem_singleton.mp c.1, c.2⟩
    rw [one]
    unfold settledIn
    refine if_congr ?_ rfl rfl
    rw [List.mem_cons]
    exact ⟨fun c => ⟨.inr c.1, c.2⟩, fun c => ⟨c.1.resolve_left fun e => here ⟨e, c.2⟩, c.2⟩⟩

/-- Whether settling the stations of a list finds an exceedance on an axis. -/
def Exceeds (axis : Marks → Bool) (g : Geometry) (ks : List Nat) (rs : List Station) : Prop :=
  ∃ r ∈ rs, r.index ∈ ks ∧ r.state = .opened ∧ axis (SettledRecord g r).marks = true

/-- An exceedance is found at the first station or at one of the others. -/
theorem exceeds_cons (axis : Marks → Bool) (g : Geometry) (k : Nat) (ks : List Nat) (rs : List Station) :
    Exceeds axis g (k :: ks) rs ↔ Exceeds axis g [k] rs ∨ Exceeds axis g ks (rs.map (settledIn g [k])) := by
  constructor
  · rintro ⟨r, hr, at_, opened, exceeds⟩
    by_cases here : r.index = k
    · exact .inl ⟨r, hr, List.mem_singleton.mpr here, opened, exceeds⟩
    · have kept : settledIn g [k] r = r := if_neg fun c => here (List.mem_singleton.mp c.1)
      exact .inr ⟨r, List.mem_map.mpr ⟨r, hr, kept⟩, (List.mem_cons.mp at_).resolve_left here, opened, exceeds⟩
  · rintro (⟨r, hr, at_, opened, exceeds⟩ | ⟨p, hp, at_, opened, exceeds⟩)
    · exact ⟨r, hr, List.mem_cons.mpr (.inl (List.mem_singleton.mp at_)), opened, exceeds⟩
    · obtain ⟨r, hr, rfl⟩ := List.mem_map.mp hp
      have kept : settledIn g [k] r = r := by
        unfold settledIn at opened ⊢
        split
        · rename_i c; rw [if_pos c] at opened; exact RecordState.noConfusion opened
        · rfl
      rw [kept] at at_ opened exceeds
      exact ⟨r, hr, List.mem_cons.mpr (.inr at_), opened, exceeds⟩

/-- What settling the stations of a list does, from `u` to `t`, in a table without stale records. -/
structure SettlesIn (ks : List Nat) (u t : State) : Prop where
  frame : t = { u with
    table := { u.table with
      records := u.table.records.map (settledIn u.geometry ks)
      summary := t.table.summary, firstX := t.table.firstX, firstY := t.table.firstY
      holdCab := t.table.holdCab, holdPlant := t.table.holdPlant, holdRecord := t.table.holdRecord }
    links := t.links }
  links : t.links = raisedLinks
    (if u.table.firstX = t.table.firstX ∧ u.table.firstY = t.table.firstY then 0 else Flag.tolerance.only) u.links
  firstX : t.table.firstX = true ↔ u.table.firstX = true ∨ Exceeds (·.exceedsX) u.geometry ks u.table.records
  firstY : t.table.firstY = true ↔ u.table.firstY = true ∨ Exceeds (·.exceedsY) u.geometry ks u.table.records
  summary : SummaryLaw u → SummaryLaw t
  reviewed : ∀ h l, Reviewed u.table.records h (u.table.hold l) → Reviewed t.table.records h (t.table.hold l)

theorem settledIn_nil (g : Geometry) (rs : List Station) : rs.map (settledIn g []) = rs :=
  (List.map_congr_left fun _ _ => if_neg fun c => List.not_mem_nil c.1).trans (List.map_id rs)

/-- A state in which none of the stations has an OPEN record stays. -/
theorem settlesIn_self {ks : List Nat} {u : State} (h : ∀ r ∈ u.table.records, r.index ∈ ks → r.state = .settled) :
    SettlesIn ks u u := by
  have none_ (axis : Marks → Bool) : ¬Exceeds axis u.geometry ks u.table.records := fun ⟨r, hr, at_, opened, _⟩ =>
    RecordState.noConfusion ((h r hr at_).symm.trans opened)
  have same : u.table.records.map (settledIn u.geometry ks) = u.table.records :=
    (List.map_congr_left fun r hr => if_neg fun c => RecordState.noConfusion ((h r hr c.1).symm.trans c.2)).trans
      (List.map_id _)
  refine ⟨?_, ?_, ?_, ?_, id, fun _ _ => id⟩
  · rw [same]
  · rw [if_pos ⟨rfl, rfl⟩]; exact (raisedLinks_zero _).symm
  · exact (or_iff_left (none_ _)).symm
  · exact (or_iff_left (none_ _)).symm

/-- Settling one station. -/
theorem settlesIn_settle {u : State} (ordered : Ordered u.table.records) (fresh : ∀ r ∈ u.table.records, r.stale = false)
    (k : Nat) : SettlesIn [k] u (settle k u) := by
  obtain ⟨stays, settles⟩ := settle_spec ordered k
  by_cases closed : ∀ r ∈ u.table.records, r.index = k → r.state = .settled
  · rw [stays closed]
    exact settlesIn_self fun r hr at_ => closed r hr (List.mem_singleton.mp at_)
  · obtain ⟨r, hr, at_, state⟩ : ∃ r ∈ u.table.records, r.index = k ∧ r.state ≠ .settled := by
      by_contra n; exact closed fun r hr e => by_contra fun c => n ⟨r, hr, e, c⟩
    have opened : r.state = .opened := by cases e : r.state with
      | opened => rfl
      | settled => exact absurd e state
    have only : ∀ q ∈ u.table.records, q.index = k → q = r := fun q hq e => eq_of_index ordered hq hr (e.trans at_.symm)
    have notStale := fresh r hr
    obtain ⟨frame, links, summary, reviewed⟩ := settles r hr at_ opened
    simp only [notStale, Bool.false_eq_true, if_false, Bool.not_false, Bool.true_and] at frame
    have records : u.table.records.map (fun q => if q.index = k then SettledRecord u.geometry r else q)
        = u.table.records.map (settledIn u.geometry [k]) := by
      refine List.map_congr_left fun q hq => ?_
      unfold settledIn
      by_cases e : q.index = k
      · obtain rfl := only q hq e
        rw [if_pos e, if_pos ⟨List.mem_singleton.mpr e, opened⟩]
      · rw [if_neg e, if_neg fun c => e (List.mem_singleton.mp c.1)]
    rw [records] at frame
    have found (axis : Marks → Bool) :
        Exceeds axis u.geometry [k] u.table.records ↔ axis (SettledRecord u.geometry r).marks = true := by
      refine ⟨fun ⟨q, hq, e, _, x⟩ => only q hq (List.mem_singleton.mp e) ▸ x, fun x => ⟨r, hr, ?_, opened, x⟩⟩
      exact List.mem_singleton.mpr at_
    generalize settle k u = t at *
    have firstX : t.table.firstX = (u.table.firstX || (SettledRecord u.geometry r).marks.exceedsX) := by rw [frame]
    have firstY : t.table.firstY = (u.table.firstY || (SettledRecord u.geometry r).marks.exceedsY) := by rw [frame]
    have after : t.table.records = u.table.records.map (settledIn u.geometry [k]) := by rw [frame]
    refine ⟨?_, ?_, ?_, ?_, fun _ => summary, fun h l first => ?_⟩
    · rw [firstX, firstY]; exact frame
    · rw [← flagsOfList_toleranceChange]; exact (linksKept_iff _ _ _).mp links
    · rw [firstX, Bool.or_eq_true, found]
    · rw [firstY, Bool.or_eq_true, found]
    · have second := reviewed l
      rw [after] at second ⊢
      exact reviewed_trans (settledIn_index _ _) (fun _ => settledIn_settled) first second

/-- Settling one station and then those of a list. -/
theorem SettlesIn.cons {k : Nat} {ks : List Nat} {u v t : State} (one : SettlesIn [k] u v) (rest : SettlesIn ks v t) :
    SettlesIn (k :: ks) u t := by
  have geometry : v.geometry = u.geometry := by rw [one.frame]
  have records : v.table.records = u.table.records.map (settledIn u.geometry [k]) := by rw [one.frame]
  have exceeds (axis : Marks → Bool) : Exceeds axis v.geometry ks v.table.records
      ↔ Exceeds axis u.geometry ks (u.table.records.map (settledIn u.geometry [k])) := by rw [geometry, records]
  refine ⟨?_, ?_, ?_, ?_, fun law => rest.summary (one.summary law), fun h l first => rest.reviewed h l (one.reviewed h l first)⟩
  · have all : v.table.records.map (settledIn v.geometry ks) = u.table.records.map (settledIn u.geometry (k :: ks)) := by
      rw [records, geometry, List.map_map]
      exact List.map_congr_left fun r _ => settledIn_settledIn _ _ _ _
    refine rest.frame.trans ?_
    rw [all, one.frame]
  · rw [rest.links, one.links]
    exact raisedLinks_tolerance (fun c => one.firstX.mpr (.inl c)) (fun c => rest.firstX.mpr (.inl c))
      (fun c => one.firstY.mpr (.inl c)) (fun c => rest.firstY.mpr (.inl c)) u.links
  · rw [rest.firstX, one.firstX, exceeds, exceeds_cons _ _ k ks, or_assoc]
  · rw [rest.firstY, one.firstY, exceeds, exceeds_cons _ _ k ks, or_assoc]

/-- Settling the stations of a list, in a table without stale records. -/
theorem settlesIn_settleEach {u : State} (ordered : Ordered u.table.records)
    (fresh : ∀ r ∈ u.table.records, r.stale = false) (ks : List Nat) : SettlesIn ks u (settleEach ks u) := by
  induction ks generalizing u with
  | nil => exact settlesIn_self fun r _ at_ => absurd at_ List.not_mem_nil
  | cons k ks ih =>
    have one := settlesIn_settle ordered fresh k
    have records : (settle k u).table.records = u.table.records.map (settledIn u.geometry [k]) := by rw [one.frame]
    refine one.cons (ih ?_ fun r hr => ?_)
    · rw [records]; exact ordered_map (settledIn_index _ _) ordered
    · rw [records] at hr
      obtain ⟨p, hp, rfl⟩ := List.mem_map.mp hr
      exact (settledIn_stale _ _ _).trans (fresh p hp)

/-! ## The settle stage (R10) -/

theorem mem_openStations {rs : List Station} {r : Station} (hr : r ∈ rs) (opened : r.state = .opened) :
    r.index ∈ openStations rs :=
  List.mem_map.mpr ⟨r, List.mem_filter.mpr ⟨hr, decide_eq_true opened⟩, rfl⟩

/-- The settle stage settles every OPEN record. -/
theorem settledIn_open (g : Geometry) (rs : List Station) :
    rs.map (settledIn g (openStations rs)) = rs.map fun r => if r.state = .opened then SettledRecord g r else r :=
  List.map_congr_left fun _ hr => if_congr (and_iff_right_of_imp (mem_openStations hr)) rfl rfl

/-- The settle stage finds an exceedance at any OPEN record. -/
theorem exceeds_open (axis : Marks → Bool) (g : Geometry) (rs : List Station) :
    Exceeds axis g (openStations rs) rs ↔ ∃ r ∈ rs, r.state = .opened ∧ axis (SettledRecord g r).marks = true :=
  exists_congr fun _ => and_congr_right fun hr =>
    ⟨fun ⟨_, opened, x⟩ => ⟨opened, x⟩, fun ⟨opened, x⟩ => ⟨mem_openStations hr opened, opened, x⟩⟩

/-- The state after the settle stage. -/
def settleStage (s : State) : State := settleEach (openStations s.table.records) s

theorem settlesIn_settleStage {u : State} (ordered : Ordered u.table.records)
    (fresh : ∀ r ∈ u.table.records, r.stale = false) : SettlesIn (openStations u.table.records) u (settleStage u) :=
  settlesIn_settleEach ordered fresh _

/-- With the walker IDLE no record is stale (R63). -/
theorem fresh_of_idle {s : State} (law : WalkerLaw s) (idle : s.table.walker = none) :
    ∀ r ∈ s.table.records, r.stale = false := by
  obtain ⟨law, -⟩ := law
  rw [idle] at law
  exact law

/-- The end of the walk stage: the settle stage, and page 0 of the reserved slot. -/
theorem endWalkStage_of_idle {s : State} {i : Nat} (engine : s.archive.engine = .reserved i) (walker : s.table.walker = none) :
    endWalkStage s = startWrite i (settleStage s) := by
  unfold endWalkStage
  rw [engine, walker]
  rfl

theorem endWalkStage_of_not {s : State} (h : ¬(s.table.walker = none ∧ ∃ i, s.archive.engine = .reserved i)) :
    endWalkStage s = s := by
  unfold endWalkStage
  split
  · rename_i i engine walker; exact absurd ⟨walker, i, engine⟩ h
  · rfl

/-! ## CLOSE PANEL (R9, R10) -/

/-- The state in which CLOSE PANEL leaves the walk stage: slot i reserved, the panel CLOSING, the feed held. -/
def reservation (i : Nat) (s : State) : State :=
  told s { s with
    panel := .closing
    depth := Governed s.depth { s.depth.reasons with panel := true }
    archive := { slots := s.archive.slots.set i (reservedSlot s.geometry), engine := .reserved i } }

theorem closePanelBody_reserves {s : State} {i : Nat} (active : s.panel = .active) (idle : s.archive.engine = .idle)
    (empty : s.emptySlot = some i) (l : Link) :
    closePanelBody l s = (endWalkStage (reservation i s), { outcome := .accepted }) := by
  have free : ¬s.archiveBusy = true := fun busy => (archiveBusy_iff s).mp busy idle
  unfold closePanelBody
  rw [if_neg (not_not.mpr active), if_neg free, empty]
  dsimp only
  rw [setPanel_eq]
  rfl

/-- The lowest EMPTY slot is the one that is found. -/
theorem emptySlot_of_first {s : State} {i : Nat} {x : Slot} (at_ : s.archive.slots[i]? = some x) (empty : x.state = .empty)
    (lowest : ∀ j y, j < i → s.archive.slots[j]? = some y → y.state ≠ .empty) : s.emptySlot = some i := by
  obtain ⟨hi, rfl⟩ := List.getElem?_eq_some_iff.mp at_
  refine List.findIdx?_eq_some_iff_getElem.mpr ⟨hi, decide_eq_true empty, fun j hj => ?_⟩
  have below : j < s.archive.slots.length := hj.trans hi
  exact fun c => lowest j _ hj (List.getElem?_eq_getElem below) (of_decide_eq_true c)

/-- A record that CLOSE PANEL or a restitch step changed exceeds where its settlement found it to. -/
theorem exceeds_settled {axis : Marks → Bool} {g : Geometry} {rs : List Station} (ordered : Ordered rs) :
    (∃ r ∈ rs, r.state = .opened ∧ axis (SettledRecord g r).marks = true)
      ↔ ∃ r ∈ rs.map (fun r => if r.state = .opened then SettledRecord g r else r), axis r.marks = true ∧ r ∉ rs := by
  constructor
  · rintro ⟨r, hr, opened, exceeds⟩
    refine ⟨SettledRecord g r, List.mem_map.mpr ⟨r, hr, if_pos opened⟩, exceeds, fun old => ?_⟩
    have same : SettledRecord g r = r := eq_of_index ordered old hr rfl
    exact RecordState.noConfusion (opened.symm.trans (congrArg Station.state same.symm))
  · rintro ⟨p, hp, exceeds, new⟩
    obtain ⟨r, hr, rfl⟩ := List.mem_map.mp hp
    by_cases opened : r.state = .opened
    · rw [if_pos opened] at exceeds
      exact ⟨r, hr, opened, exceeds⟩
    · rw [if_neg opened] at new
      exact absurd hr new

/-- Settles O24: the slot is reserved and the feed held; the settle stage follows at once with the walker IDLE. -/
theorem closePanelReservesASlot : Obligations.ClosePanelReservesASlot := by
  intro s f h hp
  have row : rowRule .closePanel .cab f.payload (takeHead .cab s) = closePanelBody .cab (takeHead .cab s) := by
    rw [hp]; rfl
  have panel : (takeHead .cab s).panel = s.panel := takeHead_panel s .cab
  have archive : (takeHead .cab s).archive = s.archive := takeHead_archive s .cab
  refine ⟨fun other => ?_, fun active busy => ?_, fun active idle full => ?_, fun i x active idle at_ empty lowest table walker => ?_⟩
  · refine refuses_of_rule (c := .closePanel) rfl h rfl (row.trans (if_pos ?_))
    rw [panel]; exact other
  · refine refuses_of_rule (c := .closePanel) rfl h rfl (row.trans ((if_neg ?_).trans (if_pos ?_)))
    · rw [panel]; exact not_not.mpr active
    · exact (archiveBusy_iff _).mpr (archive ▸ busy)
  · refine refuses_of_rule (c := .closePanel) rfl h rfl (row.trans ?_)
    have none_ : (takeHead .cab s).emptySlot = none :=
      List.findIdx?_eq_none_iff.mpr fun x hx => decide_eq_false (full x (archive ▸ hx))
    unfold closePanelBody
    rw [if_neg (by rw [panel]; exact not_not.mpr active), if_neg fun b => (archiveBusy_iff _).mp b (archive ▸ idle), none_]
  · have found : (takeHead .cab s).emptySlot = some i := by
      unfold State.emptySlot
      rw [archive]
      exact emptySlot_of_first at_ empty lowest
    have served := closePanelBody_reserves (panel.trans active) (archive ▸ idle) found .cab
    obtain ⟨n, taken⟩ : ∃ n, n = (takeHead .cab s).links := ⟨_, rfl⟩
    have reserved : reservation i (takeHead .cab s) = reservation i { s with links := n } := by rw [taken, ← takeHead_eq]
    rw [reserved] at served
    by_cases idleWalker : s.table.walker = none
    · rw [endWalkStage_of_idle (s := reservation i { s with links := n }) (i := i) rfl idleWalker] at served
      have settled : SettlesIn (openStations s.table.records) (reservation i { s with links := n })
          (settleStage (reservation i { s with links := n })) :=
        settlesIn_settleStage (u := reservation i { s with links := n }) table.1 (fresh_of_idle walker idleWalker)
      generalize hv : settleStage (reservation i { s with links := n }) = v at settled served
      have depth : v.depth = Governed s.depth { s.depth.reasons with panel := true } := by rw [settled.frame]; rfl
      refine completes_of_rule (fs := holdChange s v ++ toleranceChange s v) (c := .closePanel) rfl h rfl (row.trans served) ?_
        fun t same raised answered => ?_
      · rw [raisedLinks_append, flagsOfList_toleranceChange, flagsOfList_holdChange, depth, ← taken]
        refine settled.links.trans ?_
        have line : (reservation i { s with links := n }).links
            = raisedLinks (flagsOfList (holdChange s (reservation i s))) n := rfl
        rw [line, flagsOfList_holdChange]
        rfl
      · have tableOf_ : t.table = v.table := by rw [same]; rfl
        have depthOf : t.depth = v.depth := by rw [same]; rfl
        have changes : holdChange s t ++ toleranceChange s t = holdChange s v ++ toleranceChange s v := by
          unfold holdChange toleranceChange; rw [tableOf_, depthOf]
        have engine : t.archive.engine = .programming i 0 (panelPages t) (s.clock + 5000) := by
          have pages : panelPages t = panelPages v := by rw [same]; rfl
          have clock : v.clock = s.clock := by rw [settled.frame]; rfl
          rw [pages, ← clock, same]
          rfl
        have records : t.table.records = s.table.records.map fun r =>
            if r.state = .opened then SettledRecord s.geometry r else r := by
          rw [tableOf_, settled.frame]; exact settledIn_open _ _
        have first (axis : Marks → Bool) : Exceeds axis s.geometry (openStations s.table.records) s.table.records
            ↔ ∃ r ∈ t.table.records, axis r.marks = true ∧ r ∉ s.table.records := by
          rw [exceeds_open, records]; exact exceeds_settled table.1
        refine ⟨?_, changes ▸ raised, answered, fun some_ => absurd idleWalker some_, fun _ => ⟨?_, ?_, ?_, engine,
          panelPages_agree t, fun waits l => ?_⟩⟩
        · have whole : startWrite i v = { s with
              panel := .closing
              depth := Governed s.depth { s.depth.reasons with panel := true }
              table := v.table
              archive := { slots := s.archive.slots.set i (reservedSlot s.geometry), engine := (startWrite i v).archive.engine }
              links := v.links } := by rw [settled.frame]; rfl
          have engineOf : t.archive.engine = (startWrite i v).archive.engine := by rw [same]
          rw [tableOf_, engineOf]
          exact same.trans (by rw [whole]; rfl)
        · rw [← records, tableOf_, settled.frame]; rfl
        · rw [tableOf_, settled.firstX, ← tableOf_]; exact or_congr_right (first (·.exceedsX))
        · rw [tableOf_, settled.firstY, ← tableOf_]; exact or_congr_right (first (·.exceedsY))
        · rw [tableOf_]
          refine settled.reviewed _ l (reviewed_self fun q hq ready => ?_)
          obtain ⟨r, hr, low, high, unready⟩ := waits l q hq
          obtain ⟨done, fresh⟩ := ready r hr low high
          exact unready.elim (fun c => RecordState.noConfusion (c.symm.trans done)) fun c => Bool.noConfusion (c.symm.trans fresh)
    · rw [endWalkStage_of_not (s := reservation i { s with links := n }) (fun c => idleWalker c.1)] at served
      refine completes_of_rule (fs := holdChange s (reservation i { s with links := n })) (c := .closePanel) rfl h rfl (row.trans served) ?_
        fun t same raised answered => ?_
      · rw [← taken]; rfl
      · have tableOf_ : t.table = s.table := by rw [same]; rfl
        have changes : holdChange s t ++ toleranceChange s t = holdChange s (reservation i { s with links := n }) := by
          unfold toleranceChange
          rw [tableOf_, if_pos ⟨rfl, rfl⟩, List.append_nil, same]
          rfl
        refine ⟨?_, changes ▸ raised, answered, fun _ => ⟨tableOf_, by rw [same]; rfl⟩, fun none_ => absurd none_ idleWalker⟩
        rw [tableOf_]
        exact same.trans (by rw [same]; rfl)

end Sys2Proof.Machine
end

section
/-! The restitch step (R66): the cursor's record recomputed, and the settle stage that a last step begins (R10). -/

namespace Sys2Proof.Machine

open Sys2Proof.Safety

/-! ## The record at the cursor -/

/-- The record that a restitch step puts in the place of `r`. -/
def restitchedRecord (r : Station) (s : State) : Station :=
  if r.state = .settled then judged s.geometry { withOffset s.geometry s.table.records r with stale := false }
  else { withOffset s.geometry s.table.records r with stale := false }

@[simp] theorem restitchedRecord_index (r : Station) (s : State) : (restitchedRecord r s).index = r.index := by
  unfold restitchedRecord; split <;> rfl

@[simp] theorem restitchedRecord_state (r : Station) (s : State) : (restitchedRecord r s).state = r.state := by
  unfold restitchedRecord; split <;> rfl

@[simp] theorem restitchedRecord_stale (r : Station) (s : State) : (restitchedRecord r s).stale = false := by
  unfold restitchedRecord; split <;> rfl

/-- The record `r'` that R66 puts in the place of `r`. -/
def Redone (s : State) (r r' : Station) : Prop :=
  r' = { r with
    stale := false, offsetX := r'.offsetX, offsetY := r'.offsetY
    marks := { r.marks with
      gapBridged := r'.marks.gapBridged
      exceedsX := if r.state = .settled then decide (toleranceLimit s.geometry r.index < |r'.offsetX|)
        else r.marks.exceedsX
      exceedsY := if r.state = .settled then decide (toleranceLimit s.geometry r.index < |r'.offsetY|)
        else r.marks.exceedsY } }
  ∧ OffsetsAgree s.geometry s.table.records r' ∧ GapAgrees s.table.records r'

theorem restitchedRecord_redone {s : State} (ordered : Ordered s.table.records) (r : Station) :
    Redone s r (restitchedRecord r s) := by
  have offsets := withOffset_agrees ordered s.geometry r
  have gap := withOffset_gap ordered s.geometry r
  unfold restitchedRecord
  by_cases settled : r.state = .settled
  · rw [if_pos settled]
    refine ⟨?_, offsets, gap⟩
    rw [if_pos settled, if_pos settled]
    rfl
  · rw [if_neg settled]
    refine ⟨?_, offsets, gap⟩
    rw [if_neg settled, if_neg settled]
    rfl

/-- The table with the cursor's record replaced. -/
def placed (r' q : Station) : Station := if q.index = r'.index then r' else q

@[simp] theorem placed_index (r' q : Station) : (placed r' q).index = q.index := by
  unfold placed
  split
  · rename_i h; exact h.symm
  · rfl

/-! ## The step -/

/-- What a restitch step of the record `r`, at the cursor, does from `s` to `t`. -/
structure Restitches (r : Station) (s t : State) : Prop where
  frame : t = { s with
    table := { s.table with
      records := s.table.records.map (placed (restitchedRecord r s)), walker := t.table.walker, summary := t.table.summary
      firstX := s.table.firstX || (decide (r.state = .settled) && (restitchedRecord r s).marks.exceedsX)
      firstY := s.table.firstY || (decide (r.state = .settled) && (restitchedRecord r s).marks.exceedsY)
      holdCab := t.table.holdCab, holdPlant := t.table.holdPlant, holdRecord := t.table.holdRecord }
    links := t.links }
  walker : IsWalkerAbove t.table.records r.index s.clock t.table.walker
  links : t.links = raisedLinks
    (if s.table.firstX = t.table.firstX ∧ s.table.firstY = t.table.firstY then 0 else Flag.tolerance.only) s.links
  summary : SummaryLaw t
  reviewed : ∀ l, ∃ h, Invalidated (fun q => InRange q r.index) (s.table.hold l) h
    ∧ Reviewed t.table.records h (t.table.hold l)

/-- The table's holds after an invalidation and a review. -/
theorem invalidated_reviewed (k : Nat) (rs : List Station) (h : Hold) :
    ∃ h', Invalidated (fun q => InRange q k) h h' ∧ Reviewed rs h' ((h.invalidate [k]).review rs) :=
  ⟨_, invalidated_congr (fun q => by simp) (invalidate_spec [k] h), review_spec rs _⟩

/-- The tolerance check sets the first-exceedance marks, and raises TOLERANCE where one of them is new (R70). -/
theorem applyTolerance_eq (r : Station) (s : State) : applyTolerance r s = { s with
    table := { s.table with firstX := s.table.firstX || r.marks.exceedsX, firstY := s.table.firstY || r.marks.exceedsY }
    links := raisedLinks (if s.table.firstX = (s.table.firstX || r.marks.exceedsX)
      ∧ s.table.firstY = (s.table.firstY || r.marks.exceedsY) then 0 else Flag.tolerance.only) s.links } := by
  unfold applyTolerance
  rw [raiseIf_eq]
  dsimp only
  generalize s.table.firstX = a, s.table.firstY = b, r.marks.exceedsX = x, r.marks.exceedsY = y
  cases a <;> cases b <;> cases x <;> cases y <;> rfl

/-- The state in which a restitch step reviews the holds. -/
def recomputed (r : Station) (s : State) : State :=
  let firstX := s.table.firstX || (decide (r.state = .settled) && (restitchedRecord r s).marks.exceedsX)
  let firstY := s.table.firstY || (decide (r.state = .settled) && (restitchedRecord r s).marks.exceedsY)
  { s with
    table := { s.table.mapHolds (Hold.invalidate [r.index]) with
      records := s.table.records.map (placed (restitchedRecord r s))
      summary := summaryOf (s.table.records.map (placed (restitchedRecord r s)))
      firstX := firstX, firstY := firstY }
    links := raisedLinks
      (if s.table.firstX = firstX ∧ s.table.firstY = firstY then 0 else Flag.tolerance.only) s.links }

/-- A restitch step, as the record it recomputes, the review and the cursor's advance. -/
theorem restitch_eq {s : State} {w : Walker} {r : Station} (ordered : Ordered s.table.records)
    (hr : r ∈ s.table.records) (at_ : r.index = w.cursor) :
    restitch w s = advanceWalker r.index (reviewHolds (recomputed r s)) := by
  have found : findStation s.table.records w.cursor = some r := at_ ▸ findStation_of_mem ordered hr
  have put : putStation (restitchedRecord r s) s.table.records = s.table.records.map (placed (restitchedRecord r s)) :=
    putStation_eq_map ordered ⟨r, hr, (restitchedRecord_index r s).symm⟩
  unfold restitch
  rw [found, ← at_]
  dsimp only [restitchRecord]
  congr 2
  unfold recomputed
  rw [← put]
  by_cases settled : r.state = .settled
  · have judgement : restitchedRecord r s
        = judged s.geometry { withOffset s.geometry s.table.records r with stale := false } := if_pos settled
    rw [if_pos (by exact settled), decide_eq_true settled, judgement, applyTolerance_eq]
    rfl
  · have fresh : restitchedRecord r s = { withOffset s.geometry s.table.records r with stale := false } := if_neg settled
    rw [if_neg (by exact settled), decide_eq_false settled, fresh]
    simp only [Bool.false_and, Bool.or_false, and_self, if_true]
    have quiet : raisedLinks 0 s.links = s.links := raisedLinks_zero _
    rw [quiet]
    rfl

/-- A restitch step recomputes the record at the cursor. -/
theorem restitch_spec {s : State} {w : Walker} {r : Station} (ordered : Ordered s.table.records)
    (hr : r ∈ s.table.records) (at_ : r.index = w.cursor) : Restitches r s (restitch w s) := by
  rw [restitch_eq ordered hr at_]
  refine ⟨rfl, isWalkerAbove_map (ordered_map (placed_index _) ordered) _ _, rfl, rfl, fun l => ?_⟩
  cases l <;> exact invalidated_reviewed _ _ _

/-! ## The step's end -/

/-- The walker is IDLE above the last present record. -/
theorem walkerAbove_none {rs : List Station} {k now : Nat} {w : Option Walker} (h : IsWalkerAbove rs k now w) :
    w = none ↔ ∀ r ∈ rs, r.index ≤ k := by
  cases w with
  | none => exact iff_of_true rfl h
  | some w =>
    obtain ⟨⟨⟨r, hr, e⟩, above, -⟩, -⟩ := h
    exact iff_of_false nofun fun all => absurd (all r hr) (by omega)

theorem placed_last {r' : Station} {rs : List Station} {k : Nat} :
    (∀ q ∈ rs.map (placed r'), q.index ≤ k) ↔ ∀ q ∈ rs, q.index ≤ k := by
  simp only [List.forall_mem_map, placed_index]

/-- After the last step no record is stale. -/
theorem placed_fresh {s : State} {w : Walker} {r : Station} (law : WalkerLaw s) (walking : s.table.walker = some w)
    (last : ∀ q ∈ s.table.records, q.index ≤ w.cursor) (at_ : r.index = w.cursor) :
    ∀ q ∈ s.table.records.map (placed (restitchedRecord r s)), q.stale = false := by
  obtain ⟨law, -⟩ := law
  rw [walking] at law
  intro q hq
  obtain ⟨p, hp, rfl⟩ := List.mem_map.mp hq
  unfold placed
  split
  · exact restitchedRecord_stale r s
  · rename_i other
    rw [restitchedRecord_index, at_] at other
    have below := last p hp
    exact Bool.eq_false_of_not_eq_true fun stale => other (le_antisymm below ((law.2 p hp).mp stale))

/-- The axes' exceedances that a settle stage after a last step finds, as the records it leaves show them. -/
theorem exceeds_closed {axis : Marks → Bool} {g : Geometry} {rs : List Station} {r r' : Station} (ordered : Ordered rs)
    (hr : r ∈ rs) (index : r'.index = r.index) (state : r'.state = r.state) :
    ((r.state = .settled ∧ axis r'.marks = true)
        ∨ ∃ q ∈ rs.map (placed r'), q.state = .opened ∧ axis (SettledRecord g q).marks = true)
      ↔ ∃ q ∈ (rs.map (placed r')).map (fun q => if q.state = .opened then SettledRecord g q else q),
          axis q.marks = true ∧ (q.index = r.index ∨ ∃ o ∈ rs, o.index = q.index ∧ o.state = .opened) := by
  have new : r' ∈ rs.map (placed r') := List.mem_map.mpr ⟨r, hr, if_pos index.symm⟩
  constructor
  · rintro (⟨settled, exceeds⟩ | ⟨q, hq, opened, exceeds⟩)
    · refine ⟨r', List.mem_map.mpr ⟨r', new, if_neg fun c => ?_⟩, exceeds, .inl index⟩
      exact RecordState.noConfusion (c.symm.trans (state.trans settled))
    · refine ⟨SettledRecord g q, List.mem_map.mpr ⟨q, hq, if_pos opened⟩, exceeds, ?_⟩
      obtain ⟨p, hp, rfl⟩ := List.mem_map.mp hq
      by_cases here : p.index = r'.index
      · exact .inl ((placed_index r' p).trans (here.trans index))
      · refine .inr ⟨p, hp, (placed_index r' p).symm, ?_⟩
        rw [placed, if_neg here] at opened
        exact opened
  · rintro ⟨q, hq, exceeds, which⟩
    obtain ⟨m, hm, rfl⟩ := List.mem_map.mp hq
    by_cases opened : m.state = .opened
    · rw [if_pos opened] at exceeds
      exact .inr ⟨m, hm, opened, exceeds⟩
    · rw [if_neg opened] at exceeds which
      obtain ⟨p, hp, rfl⟩ := List.mem_map.mp hm
      rw [placed_index] at which
      have here : p.index = r'.index := by
        by_contra other
        rw [placed, if_neg other] at opened
        rcases which with e | ⟨o, ho, e, open'⟩
        · exact other (e.trans index.symm)
        · exact opened (eq_of_index ordered ho hp e ▸ open')
      rw [placed, if_pos here] at exceeds opened
      refine .inl ⟨?_, exceeds⟩
      cases e : r.state with
      | opened => exact absurd (state.trans e) opened
      | settled => rfl

/-- Settles O56: the step's own change, and the settle stage with page 0 where it ends the walk stage. -/
theorem restitchStepRecomputesTheRecord : Obligations.RestitchStepRecomputesTheRecord := by
  intro s w r hs walking table hr at_ redone last place reviewed
  have due : eventTime s .restitchStepCompletion = some w.due := by simp only [eventTime, walking, Option.map_some]
  have done : Restitches r (s.reach w.due) (restitch w (s.reach w.due)) := restitch_spec table.1 hr at_
  have rule : eventRule .restitchStepCompletion (s.reach w.due) = restitchDone w (s.reach w.due) := by
    have still : (s.reach w.due).table.walker = some w := walking
    simp only [eventRule, still]
  unfold restitchDone at rule
  dsimp only at rule
  generalize restitch w (s.reach w.due) = u at done rule
  have new : redone (restitchedRecord r s) := restitchedRecord_redone table.1 r
  have placing : placed (restitchedRecord r s) = place (restitchedRecord r s) := by
    funext q; simp only [placed, place, restitchedRecord_index, at_]
  have records : u.table.records = s.table.records.map (placed (restitchedRecord r s)) := by rw [done.frame]; rfl
  have panel : u.panel = s.panel := by rw [done.frame]; rfl
  have archive : u.archive = s.archive := by rw [done.frame]; rfl
  have idle : u.table.walker = none ↔ last := by
    rw [walkerAbove_none done.walker, records, placed_last, at_]
  have holds (l : Link) : ∃ h, Invalidated (fun q => InRange q w.cursor) (s.table.hold l) h
      ∧ Reviewed u.table.records h (u.table.hold l) := at_ ▸ done.reviewed l
  refine ⟨fun other => ?_, fun i lastOne law closing engine => ?_⟩
  · have stays : eventRule .restitchStepCompletion (s.reach w.due) = u := by
      rw [rule, panel]
      split
      · rename_i closing
        exact endWalkStage_of_not fun ⟨walker, i, engine⟩ => other ⟨idle.mp walker, closing, i, archive ▸ engine⟩
      · rfl
    refine completes_due hs due ⟨restitchedRecord r s, new, ?_⟩
    rw [stays, ← placing]
    refine ⟨done.frame, at_ ▸ done.walker, done.summary, (linksKept_iff _ _ _).mpr ?_, holds⟩
    rw [flagsOfList_toleranceChange]
    exact done.links
  · have ends : eventRule .restitchStepCompletion (s.reach w.due) = startWrite i (settleStage u) := by
      rw [rule, panel, if_pos closing]
      exact endWalkStage_of_idle (archive ▸ engine) (idle.mpr lastOne)
    have settled : SettlesIn (openStations u.table.records) u (settleStage u) := settlesIn_settleStage
      (records ▸ ordered_map (placed_index _) table.1) (records ▸ placed_fresh law walking lastOne at_)
    generalize settleStage u = v at settled ends
    refine completes_due hs due ⟨restitchedRecord r s, new, ?_⟩
    rw [ends, ← placing]
    have geometry : u.geometry = s.geometry := by rw [done.frame]; rfl
    have left : v.table.records = (s.table.records.map (placed (restitchedRecord r s))).map fun q =>
        if q.state = .opened then SettledRecord s.geometry q else q := by
      rw [settled.frame, ← records, ← geometry]; exact settledIn_open _ _
    have first (axis : Marks → Bool) : ((r.state = .settled ∧ axis (restitchedRecord r s).marks = true)
        ∨ Exceeds axis u.geometry (openStations u.table.records) u.table.records)
        ↔ ∃ q ∈ v.table.records, axis q.marks = true
            ∧ (q.index = w.cursor ∨ ∃ o ∈ s.table.records, o.index = q.index ∧ o.state = .opened) := by
      rw [exceeds_open, left, records, geometry, ← at_]
      exact exceeds_closed table.1 hr (restitchedRecord_index r s) (restitchedRecord_state r s)
    have firstX : u.table.firstX = (s.table.firstX || (decide (r.state = .settled) && (restitchedRecord r s).marks.exceedsX)) := by
      rw [done.frame]; rfl
    have firstY : u.table.firstY = (s.table.firstY || (decide (r.state = .settled) && (restitchedRecord r s).marks.exceedsY)) := by
      rw [done.frame]; rfl
    refine ⟨?_, settled.summary done.summary, (linksKept_iff _ _ _).mpr ?_, fun l => ?_, panelPages_agree _, ?_, ?_⟩
    · have clock : v.clock = max s.clock w.due := by rw [settled.frame, done.frame]; rfl
      have table' : v.table = { s.table with
          records := v.table.records, walker := none, summary := v.table.summary
          firstX := v.table.firstX, firstY := v.table.firstY
          holdCab := v.table.holdCab, holdPlant := v.table.holdPlant, holdRecord := v.table.holdRecord } := by
        have walker : none = v.table.walker := by rw [settled.frame]; exact (idle.mpr lastOne).symm
        have kept : v.table.acc = s.table.acc ∧ v.table.lastIncl = s.table.lastIncl
            ∧ v.table.reference = s.table.reference := by rw [settled.frame, done.frame]; exact ⟨rfl, rfl, rfl⟩
        obtain ⟨acc, lastIncl, reference⟩ := kept
        dsimp only
        rw [walker, ← acc, ← lastIncl, ← reference]
      rw [left, List.map_map] at table'
      have archive' : v.archive = s.archive := by rw [settled.frame]; exact archive
      have engine' : (startWrite i v).archive = { s.archive with
          engine := .programming i 0 (panelPages (startWrite i v)) (max s.clock w.due + 5000) } := by
        rw [← clock, ← archive']; rfl
      refine state_eq ?_ clock ?_ ?_ ?_ ?_ table' ?_ ?_ ?_ ?_ ?_ rfl engine' ?_ ?_ <;>
        (dsimp only [startWrite, State.setEngine]; rw [settled.frame, done.frame]; rfl)
    · rw [flagsOfList_toleranceChange]
      refine settled.links.trans ?_
      rw [done.links]
      exact raisedLinks_tolerance (fun c => by rw [firstX, show s.table.firstX = true from c]; rfl) (fun c => settled.firstX.mpr (.inl c))
        (fun c => by rw [firstY, show s.table.firstY = true from c]; rfl) (fun c => settled.firstY.mpr (.inl c)) s.links
    · obtain ⟨h, invalidated, first⟩ := holds l
      exact ⟨h, invalidated, settled.reviewed h l first⟩
    · refine settled.firstX.trans ?_
      rw [firstX, Bool.or_eq_true, Bool.and_eq_true, decide_eq_true_iff, or_assoc]
      exact or_congr_right (first (·.exceedsX))
    · refine settled.firstY.trans ?_
      rw [firstY, Bool.or_eq_true, Bool.and_eq_true, decide_eq_true_iff, or_assoc]
      exact or_congr_right (first (·.exceedsY))

end Sys2Proof.Machine
end

section
/-! The drives' stalls, lockout and restart (R113 to R117). -/

namespace Sys2Proof.Machine

open Sys2Proof.Safety

/-! ## A published wheel drive -/

/-- A state with one wheel drive and its reason of the feed governor as given. -/
def wheelPut (w : WheelId) (d : WheelDrive) (held : Bool) (s : State) : State :=
  { s.setWheel w d with depth := Governed s.depth (driveReason w held s.depth.reasons) }

/-- Publishing a wheel drive: its watch is judged, and the feed governor is told. -/
theorem publishWheel_told (w : WheelId) (d : WheelDrive) (s : State) : publishWheel w d s
    = told s (wheelPut w (stopUnwatched d) (decide (¬(d.state = .running ∧ d.dirStatus = .forward))) s) := by
  rw [publishWheel_eq, govern_told]
  cases w <;> rfl

theorem stopUnwatched_of_none {d : WheelDrive} (h : d.confirm = none) : stopUnwatched d = d := by
  unfold stopUnwatched
  split
  · rfl
  · rw [← h]

/-- A drive that is not RUNNING, with its confirm timer stopped, is published as it is and holds the feed. -/
theorem publishWheel_stopped {w : WheelId} {d : WheelDrive} (s : State) (confirm : d.confirm = none) {st : WheelState}
    (state : d.state = st) (other : st ≠ .running) : publishWheel w d s = told s (wheelPut w d true s) := by
  have holds : decide (¬(d.state = .running ∧ d.dirStatus = .forward)) = true := by simp [state, other]
  rw [publishWheel_told, stopUnwatched_of_none confirm, holds]

/-- The change to `u` told, over flags raised before it. -/
theorem told_raised {x : FlagSet} {s u : State} :
    told { s with links := raisedLinks x s.links } u
      = { u with links := raisedLinks (x ||| flagsOfList (holdChange s u)) s.links } := by
  rw [← raisedLinks_raisedLinks]
  rfl

theorem raise_raise (f g : Flag) (s : State) :
    raise f (raise g s) = { s with links := raisedLinks (g.only ||| f.only) s.links } := by
  rw [← raisedLinks_raisedLinks]
  rfl

/-! ## Stalls (R114) and the end of a reversal (R115) -/

/-- A drive that a stall puts into STALL_REVERSE. -/
def reversed (list : List Nat) (d : WheelDrive) : WheelDrive :=
  { d with stalls := list, confirm := none, state := .stallReverse, dirStatus := statusFor .reverse d.dirOut }

/-- A drive that a stall locks out. -/
def lockedOut (list : List Nat) (d : WheelDrive) : WheelDrive :=
  { d with stalls := list, confirm := none, state := .lockedOut, dirStatus := plainStatus d.dirOut
           motor := { d.motor with target := 0 } }

/-- A drive whose reversal ends. -/
def resumed (d : WheelDrive) : WheelDrive :=
  { d with state := .stallResume, reverseTimer := none, dirStatus := statusFor .forward d.dirOut
           confirm := if d.dirOut = .forward then d.confirm else none }

/-- A drive that RESTART DRIVE takes out of the lockout. -/
def restarted (dir : Dir) (d : WheelDrive) : WheelDrive :=
  { d with state := .stopped, stalls := [], confirm := none, dirStatus := statusFor dir d.dirOut }

/-- The state whose DRIVE_STALL is raised has the wheel drives as before. -/
theorem wheelPut_links (w : WheelId) (d : WheelDrive) (b : Bool) (n : Links) (s : State) :
    wheelPut w d b { s with links := n } = { wheelPut w d b s with links := n } := by
  cases w <;> rfl

theorem stall_reverses {w : WheelId} {s : State}
    (few : (stallList s.demand.tuning s.nowMs (s.wheel w).stalls).length < 3) :
    let u := wheelPut w (reversed (stallList s.demand.tuning s.nowMs (s.wheel w).stalls) (s.wheel w)) true s
    stall w s = { u with links := raisedLinks (flagsOfList (.driveStall :: holdChange s u)) s.links } := by
  intro u
  unfold stall
  dsimp only
  rw [if_pos few, withDirStatus_eq, raise_eq]
  refine (publishWheel_stopped (st := .stallReverse) _ rfl rfl nofun).trans ?_
  rw [wheelPut_links, told_raised, flagsOfList_cons]
  rfl

theorem stall_locksOut {w : WheelId} {s : State}
    (many : 3 ≤ (stallList s.demand.tuning s.nowMs (s.wheel w).stalls).length) :
    let u := wheelPut w (lockedOut (stallList s.demand.tuning s.nowMs (s.wheel w).stalls) (s.wheel w)) true s
    stall w s = { u with links := raisedLinks (flagsOfList (.driveStall :: .driveLockout :: holdChange s u)) s.links } := by
  intro u
  unfold stall
  dsimp only
  have kept (out : Dir) : statusFor out out = plainStatus out := if_pos rfl
  rw [if_neg (not_lt.mpr many), withDirStatus_eq, raise_raise]
  refine (publishWheel_stopped (st := .lockedOut) _ rfl rfl nofun).trans ?_
  rw [wheelPut_links, told_raised, flagsOfList_cons, flagsOfList_cons, ← BitVec.or_assoc]
  dsimp only [wantedIn]
  rw [kept]
  rfl

/-- A drive in STALL_RESUME is watched with its output FORWARD. -/
theorem stopUnwatched_resuming (d : WheelDrive) : stopUnwatched { d with
    state := .stallResume, reverseTimer := none, dirStatus := statusFor .forward d.dirOut } = resumed d := by
  obtain ⟨motor, state, out, status, stalls, confirm, reverse, loaded, time, bands⟩ := d
  cases out <;> rfl

theorem endReversal_resumes (w : WheelId) (s : State) :
    endReversal w s = told s (wheelPut w (resumed (s.wheel w)) true s) := by
  unfold endReversal
  rw [withDirStatus_eq, publishWheel_told]
  refine congrArg (told s) ?_
  exact congrArg (fun d => wheelPut w d true s) (stopUnwatched_resuming (s.wheel w))

/-! ## RESTART DRIVE (R117) -/

theorem wheelOf_none {b : Byte} (h : 1 < b.toNat) : wheelOf b = none := by
  unfold wheelOf
  rw [if_neg (fun e => by rw [e] at h; exact absurd h (by decide)), if_neg (fun e => by rw [e] at h; exact absurd h (by decide))]

/-- The code of a wheel drive (12.3). -/
def wheelCode : WheelId → Nat
  | .a => 0
  | .b => 1

theorem wheelOf_code {b : Byte} {w : WheelId} (h : b.toNat = wheelCode w) : wheelOf b = some w := by
  cases w with
  | a =>
    obtain rfl : b = 0 := BitVec.eq_of_toNat_eq h
    rfl
  | b =>
    obtain rfl : b = 1 := BitVec.eq_of_toNat_eq h
    rfl

theorem takeHead_wheel (l : Link) (s : State) (w : WheelId) : (takeHead l s).wheel w = s.wheel w := by
  unfold State.wheel; rw [takeHead_drives]

theorem restart_eq (w : WheelId) (s : State) : publishWheel w (withDirStatus s.demand.wheel
      { s.wheel w with state := .stopped, stalls := [], confirm := none }) s
    = told s (wheelPut w (restarted s.demand.wheel.direction (s.wheel w)) true s) := by
  rw [withDirStatus_eq]
  exact publishWheel_stopped (st := .stopped) _ rfl rfl nofun

/-- The rule of RESTART DRIVE, by the drive that its code names. -/
theorem restartRow {f : Frame} {b : Byte} (s : State) (hp : f.payload = [b]) :
    rowRule .restartDrive .cab f.payload (takeHead .cab s) = match wheelOf b with
      | none => (takeHead .cab s, refusal .badValue)
      | some w => if ((takeHead .cab s).wheel w).state = .lockedOut then
          (publishWheel w (withDirStatus (takeHead .cab s).demand.wheel { (takeHead .cab s).wheel w with
            state := .stopped, stalls := [], confirm := none }) (takeHead .cab s), doneWith [])
        else (takeHead .cab s, refusal .wrongState) := by
  rw [hp]
  rfl

/-- Settles O50: the stall's two outcomes, the reverse timer, and RESTART DRIVE. -/
theorem stallsReverseResumeAndLockOut : Obligations.StallsReverseResumeAndLockOut := by
  refine ⟨fun s w due hs => ⟨?_, ?_, ?_⟩, fun s f b h hp => ⟨fun bad => ?_, fun w code => ⟨fun other => ?_, fun locked => ?_⟩⟩⟩
  · intro timer few
    refine happens_of_rule (c := .stallConfirmExpiry w) hs timer ?_
    exact stall_reverses (w := w) (s := s.reach due) few
  · intro timer many
    refine happens_of_rule (c := .stallConfirmExpiry w) hs timer ?_
    exact stall_locksOut (w := w) (s := s.reach due) many
  · intro timer
    refine happens_of_rule (c := .reverseTimerExpiry w) hs timer ?_
    exact endReversal_resumes w (s.reach due)
  · have row := restartRow s hp
    rw [wheelOf_none bad] at row
    exact refuses_of_rule (c := .restartDrive) rfl h rfl row
  · have row := restartRow s hp
    have named : wheelOf b = some w := wheelOf_code (code.trans (by cases w <;> rfl))
    rw [named] at row
    refine refuses_of_rule (c := .restartDrive) rfl h rfl (row.trans (if_neg ?_))
    rw [takeHead_wheel]
    exact other
  · intro d u
    have row := restartRow s hp
    have named : wheelOf b = some w := wheelOf_code (code.trans (by cases w <;> rfl))
    rw [named] at row
    refine serves_of_rule (c := .restartDrive) rfl h rfl (row.trans ((if_pos ?_).trans ?_))
    · rw [takeHead_wheel]; exact locked
    · rw [restart_eq, takeHead_eq, wheelPut_links]
      rfl

end Sys2Proof.Machine
end

section
/-! The loop passes (R105 to R112, R115, R118) and the PWM period (R110). -/

namespace Sys2Proof.Machine

open Sys2Proof.Safety

/-! ## Drive P and the Return Balance Unit (R118, R144) -/

/-- The return balance after drive P went from one state to another. -/
def pumpReturn (old new : PumpState) (r : ReturnBalance) : ReturnBalance :=
  if old = .stopped ∧ new = .running ∧ r.state = .stopped then { r with state := .priming, limit := 0 }
  else if old = .running ∧ new = .stopped ∧ r.state ≠ .stopped then
    { r with state := .stopped, limit := 0, confirm := none, recovery := none }
  else r

/-- The state after drive P is published, but for the flags. -/
def pumpPut (d : PumpDrive) (s : State) : State :=
  { s with
    drives := { s.drives with p := d }
    ret := pumpReturn s.drives.p.state d.state s.ret
    depth := afterReturn s.depth s.ret.state (pumpReturn s.drives.p.state d.state s.ret).state }

/-- A change of the return state told, from `s` to `u`, with its flags. -/
def returnTold (s u : State) : State :=
  { u with links := raisedLinks (flagsOfList (returnChange s u ++ holdChange s u)) s.links }

theorem returnTold_same {s u : State} (ret : u.ret = s.ret) (depth : u.depth = s.depth) (links : u.links = s.links) :
    returnTold s u = u := by
  have quiet : returnChange s u ++ holdChange s u = [] := by
    unfold returnChange holdChange
    rw [ret, depth, if_pos rfl, if_pos rfl]
    rfl
  unfold returnTold
  rw [quiet, flagsOfList_nil]
  have none_ : raisedLinks 0 s.links = s.links := raisedLinks_zero _
  rw [none_, ← links]

theorem returnTold_entered {st : ReturnState} {s : State} (other : st ≠ s.ret.state) : enterReturn st s = returnTold s
    { s with
      ret := { s.ret with
        state := st, limit := limitIn s.demand { s.ret with state := st }
        confirm := if st = .stopped ∨ st = .blocked then none else s.ret.confirm
        recovery := if st = .stopped then none else s.ret.recovery }
      depth := Governed s.depth { s.depth.reasons with ret := holdsReturn st } } := by
  unfold returnTold
  rw [enterReturn_change other, flagsOfList_append, flagsOfList_returnChange, flagsOfList_holdChange, if_neg other]

theorem afterReturn_changed {d : DepthCounter} {st st' : ReturnState} (h : st' ≠ st) :
    afterReturn d st st' = Governed d { d.reasons with ret := holdsReturn st' } := if_neg h

/-- Publishing drive P. -/
theorem publishPump_eq (d : PumpDrive) (s : State) : publishPump d s = returnTold s (pumpPut d s) := by
  have kept (same : pumpReturn s.drives.p.state d.state s.ret = s.ret) :
      returnTold s (pumpPut d s) = { s with drives := { s.drives with p := d } } := by
    have put : pumpPut d s = { s with drives := { s.drives with p := d } } := by
      unfold pumpPut afterReturn; rw [same, if_pos rfl]
    rw [put]
    exact returnTold_same rfl rfl rfl
  unfold publishPump
  dsimp only
  by_cases same : d.state = s.drives.p.state
  · rw [if_pos same, kept]
    unfold pumpReturn
    rw [same, if_neg fun c => by rw [c.1] at c; exact PumpState.noConfusion c.2.1, if_neg fun c => by rw [c.1] at c; exact PumpState.noConfusion c.2.1]
  · rw [if_neg same]
    cases new : d.state with
    | running =>
      have old : s.drives.p.state = .stopped := by
        cases e : s.drives.p.state with
        | stopped => rfl
        | running => exact absurd (new.trans e.symm) same
      by_cases idle : s.ret.state = .stopped
      · have ret : pumpReturn s.drives.p.state d.state s.ret = { s.ret with state := .priming, limit := 0 } :=
          if_pos ⟨old, new, idle⟩
        have told_ := returnTold_entered (st := .priming) (s := { s with drives := { s.drives with p := d } })
          (by change _ ≠ s.ret.state; rw [idle]; nofun)
        refine (if_pos (by exact idle)).trans (told_.trans ?_)
        unfold pumpPut
        rw [ret, afterReturn_changed (by rw [idle]; nofun)]
        rfl
      · refine (if_neg (by exact idle)).trans (kept ?_).symm
        rw [new]
        unfold pumpReturn
        rw [if_neg fun c => idle c.2.2, if_neg fun c => PumpState.noConfusion c.2.1]
    | stopped =>
      have old : s.drives.p.state = .running := by
        cases e : s.drives.p.state with
        | running => rfl
        | stopped => exact absurd (new.trans e.symm) same
      by_cases idle : s.ret.state = .stopped
      · have still : enterReturn .stopped { s with drives := { s.drives with p := d } } = { s with drives := { s.drives with p := d } } :=
          if_pos idle.symm
        refine still.trans (kept ?_).symm
        rw [new]
        unfold pumpReturn
        rw [if_neg fun c => PumpState.noConfusion c.2.1, if_neg fun c => c.2.2 idle]
      · have ret : pumpReturn s.drives.p.state d.state s.ret
            = { s.ret with state := .stopped, limit := 0, confirm := none, recovery := none } :=
          (if_neg fun c => idle c.2.2).trans (if_pos ⟨old, new, idle⟩)
        have told_ := returnTold_entered (st := .stopped) (s := { s with drives := { s.drives with p := d } })
          (fun c => idle c.symm)
        refine told_.trans ?_
        unfold pumpPut
        rw [ret, afterReturn_changed fun c => idle c.symm]
        rfl

/-! ## Drive P's pass (R105 to R107, R109, R118) -/

/-- The duty stage of a motor, by whether the valve is held closed (R109, R110). -/
theorem dutyStage_spec {closed : Bool} {held : Prop} (h : closed = true ↔ held) (t : TuningGroup) (f : Int) (m : Motor) :
    (held → (dutyStage t closed f m).computed = 0 ∧ (dutyStage t closed f m).integ = 0)
      ∧ (¬held → DutyAgrees t f m (dutyStage t closed f m)) := by
  refine ⟨fun shut => ?_, fun open' => ?_⟩
  · rw [dutyStage, if_pos (h.mpr shut)]
    exact ⟨rfl, rfl⟩
  · rw [dutyStage, if_neg (mt h.mp open')]
    exact dutyTerms_spec t f m

/-- The motor of drive P before the duty stage. -/
def pumpRamped (s : State) : Motor :=
  { s.drives.p.motor with
    loopTimer := some (s.inMs s.demand.tuning.loopPeriod)
    target := pumpTarget s
    working := stepToward s.drives.p.motor.working (pumpTarget s) s.demand.tuning.rampStep }

/-- Drive P's state after the state stage. -/
def pumpDecided (s : State) : PumpState :=
  pumpStateAt { s.drives.p with motor := { s.drives.p.motor with
    loopTimer := some (s.inMs s.demand.tuning.loopPeriod), target := pumpTarget s } }

/-- Whether the valve of drive P is held closed in a pass. -/
def pumpShut (s : State) : Bool :=
  pumpDecided s = .stopped && pumpTarget s = 0
    && stepToward s.drives.p.motor.working (pumpTarget s) s.demand.tuning.rampStep = 0

theorem pumpPass_eq (s : State) : pumpPass s = { s.drives.p with
    state := pumpDecided s
    motor := dutyStage s.demand.tuning (pumpShut s) (((pumpRamped s).working * 1000).tdiv 15000) (pumpRamped s) } := rfl

theorem pumpShut_iff (s : State) : pumpShut s = true
    ↔ (pumpRamped s).working = 0 ∧ pumpDecided s = .stopped ∧ pumpTarget s = 0 := by
  unfold pumpShut pumpRamped
  simp only [Bool.and_eq_true, decide_eq_true_eq]
  tauto

theorem atRest_iff (m : Motor) : m.atRest = true ↔ m.target = 0 ∧ m.working = 0 ∧ m.speed < 10 := by
  simp only [Motor.atRest, Bool.and_eq_true, decide_eq_true_eq, and_assoc]

theorem pumpDecided_stopped {s : State} (h : s.drives.p.state = .stopped) :
    pumpDecided s = if 0 < pumpTarget s then .running else .stopped := by
  unfold pumpDecided pumpStateAt
  dsimp only
  rw [h]

theorem pumpDecided_running {s : State} (h : s.drives.p.state = .running) :
    pumpDecided s = if pumpTarget s = 0 ∧ s.drives.p.motor.working = 0 ∧ s.drives.p.motor.speed < 10 then .stopped
      else .running := by
  unfold pumpDecided pumpStateAt
  dsimp only
  rw [h]
  exact if_congr (atRest_iff _) rfl rfl

/-- Settles O49: drive P's pass in its stages, with the return state it changes, and the PWM period. -/
theorem pumpPassAndPwmPeriod : Obligations.PumpPassAndPwmPeriod := by
  refine ⟨fun s due hs timer => ?_, fun s due hs timer => ?_⟩
  · refine completes_due (c := .loopTimerExpiry .p) hs timer ?_
    have rule : eventRule (.loopTimerExpiry .p) (s.reach due)
        = returnTold (s.reach due) (pumpPut (pumpPass (s.reach due)) (s.reach due)) := publishPump_eq _ _
    rw [rule]
    obtain ⟨shut, duty⟩ := dutyStage_spec (pumpShut_iff (s.reach due)) s.demand.tuning
      (((pumpRamped (s.reach due)).working * 1000).tdiv 15000) (pumpRamped (s.reach due))
    have passed := pumpPass_eq (s.reach due)
    generalize hd : pumpPass (s.reach due) = d at passed ⊢
    have kept := dutyStage_kept s.demand.tuning (pumpShut (s.reach due))
      (((pumpRamped (s.reach due)).working * 1000).tdiv 15000) (pumpRamped (s.reach due))
    generalize hm : dutyStage s.demand.tuning (pumpShut (s.reach due))
      (((pumpRamped (s.reach due)).working * 1000).tdiv 15000) (pumpRamped (s.reach due)) = m at shut duty kept
    have motor : d.motor = m := by rw [passed]; exact hm
    have state : d.state = pumpDecided (s.reach due) := by rw [passed]
    have working : m.working = (pumpRamped (s.reach due)).working := by rw [kept]
    have target : m.target = pumpTarget s := by rw [kept]; rfl
    intro p was is m0 m' rest closed ret
    have m'_eq : m' = m := motor
    have state_eq' : is.state = pumpDecided (s.reach due) := state
    have held : closed ↔ (pumpRamped (s.reach due)).working = 0 ∧ pumpDecided (s.reach due) = .stopped ∧ pumpTarget s = 0 := by
      rw [← working, ← state_eq', ← target, ← m'_eq]
    have still : rest ↔ pumpTarget s = 0 ∧ m0.working = 0 ∧ m0.speed < 10 := by
      rw [← target, ← m'_eq]
    refine ⟨?_, (linksKept_iff _ _ _).mpr rfl, ?_, fun stopped => ?_, fun running => ⟨fun resting => ?_, fun moving => ?_⟩, ?_,
      fun c => ?_, fun c => ?_⟩
    · have whole : ({ is with motor := { m0 with
          target := m'.target, working := m'.working, computed := m'.computed, integ := m'.integ
          loopTimer := some (max s.clock due + p.loopPeriod.toNat * 1000) } } : PumpDrive) = d := by
        have same : m = { m0 with
            target := m.target, working := m.working, computed := m.computed, integ := m.integ
            loopTimer := some (max s.clock due + p.loopPeriod.toNat * 1000) } := by
          rw [target, working]; exact kept
        rw [m'_eq, ← same, ← motor]
        rfl
      rw [whole]
      rfl
    · rw [m'_eq, target]; exact clamp_eq (by decide) _
    · rw [state_eq', m'_eq, target]; exact pumpDecided_stopped stopped
    · rw [state_eq', pumpDecided_running (s := s.reach due) running]
      exact if_pos (still.mp resting)
    · rw [state_eq', pumpDecided_running (s := s.reach due) running]
      exact if_neg (mt still.mpr moving)
    · rw [m'_eq, target, working]; exact stepToward_stepTo _ _ _
    · rw [m'_eq]; exact shut (held.mp c)
    · rw [m'_eq, working]; exact duty (mt held.mpr c)
  · rw [exec_due (c := .pwmPeriodStart) hs timer]
    rfl

end Sys2Proof.Machine
end

section
/-! The loop pass of a wheel drive (R103, R104, R106 to R112, R114, R115). -/

namespace Sys2Proof.Machine

open Sys2Proof.Safety

/-! ## The target and the state (R103, R104, R112, R114 to R116) -/

/-- A wheel drive in a loop pass, its target composed. -/
def targeted (w : WheelId) (s : State) : WheelDrive :=
  { s.wheel w with motor := { (s.wheel w).motor with
      loopTimer := some (s.inMs s.demand.tuning.loopPeriod), target := wheelTarget s w } }

theorem wheelTarget_lockedOut {s : State} {w : WheelId} (h : (s.wheel w).state = .lockedOut) : wheelTarget s w = 0 := by
  unfold wheelTarget; dsimp only; rw [h]

theorem wheelTarget_reversing {s : State} {w : WheelId} (h : (s.wheel w).state = .stallReverse) :
    wheelTarget s w = if 0 < baseSpeedFor s w then s.demand.tuning.reverseSpeed else 0 := by
  unfold wheelTarget; dsimp only; rw [h, effectiveBase_eq]

theorem wheelTarget_composed {s : State} {w : WheelId} (diff : |s.align.diff| ≤ 200) (h : (s.wheel w).state ≠ .lockedOut)
    (h' : (s.wheel w).state ≠ .stallReverse) : TargetFrom w (baseSpeedFor s w) s.align.diff (wheelTarget s w) := by
  have composed : wheelTarget s w = composedTarget w (baseSpeedFor s w) s.align.diff := by
    unfold wheelTarget
    dsimp only
    rw [effectiveBase_eq]
    cases e : (s.wheel w).state with
    | lockedOut => exact absurd e h
    | stallReverse => exact absurd e h'
    | _ => rfl
  rw [composed]
  exact composedTarget_spec w _ diff

/-- The state stage, by the state that the pass finds (R112, R115). -/
theorem wheelStateAt_spec (t : TuningGroup) (d : WheelDrive) :
    let rest := d.motor.target = 0 ∧ d.motor.working = 0 ∧ d.motor.speed < 10
    (d.state = .stopped → wheelStateAt t d = if 0 < d.motor.target then .running else .stopped)
    ∧ (d.state = .running → (rest → wheelStateAt t d = .stopped) ∧ (¬rest → wheelStateAt t d = .running))
    ∧ (d.state = .stallResume →
        (d.dirStatus = .forward → t.stallSpeed ≤ d.motor.speed → wheelStateAt t d = .running)
        ∧ (d.dirStatus = .forward → d.motor.speed < t.stallSpeed → rest → wheelStateAt t d = .stopped)
        ∧ (d.dirStatus = .forward → d.motor.speed < t.stallSpeed → ¬rest → wheelStateAt t d = .stallResume)
        ∧ (d.dirStatus ≠ .forward → wheelStateAt t d = .stallResume))
    ∧ (d.state = .stallReverse ∨ d.state = .lockedOut → wheelStateAt t d = d.state) := by
  intro rest
  have resting : d.motor.atRest = true ↔ rest := atRest_iff d.motor
  unfold wheelStateAt
  refine ⟨fun stopped => ?_, fun running => ⟨fun r => ?_, fun r => ?_⟩, fun resuming => ⟨fun f fast => ?_,
    fun f slow r => ?_, fun f slow r => ?_, fun f => ?_⟩, fun other => ?_⟩
  · rw [stopped]
  · rw [running]; exact if_pos (resting.mpr r)
  · rw [running]; exact if_neg (mt resting.mp r)
  · rw [resuming]; exact if_pos ⟨f, fast⟩
  · rw [resuming]; exact (if_neg fun c => absurd c.2 (not_le.mpr slow)).trans (if_pos ⟨f, resting.mpr r⟩)
  · rw [resuming]
    exact (if_neg fun c => absurd c.2 (not_le.mpr slow)).trans (if_neg fun c => r (resting.mp c.2))
  · rw [resuming]; exact (if_neg fun c => f c.1).trans (if_neg fun c => f c.1)
  · rcases other with e | e <;> rw [e]

/-! ## The stages after the state -/

/-- The state of a wheel drive after the state stage of a pass. -/
def passState (w : WheelId) (s : State) : WheelState := wheelStateAt s.demand.tuning (targeted w s)

/-- Its direction status before the flip (R108). -/
def passStatus (w : WheelId) (s : State) : DirStatus :=
  statusFor (wantedIn s (passState w s) (s.wheel w).dirOut) (s.wheel w).dirOut

/-- Its motor after the ramp (R107). -/
def passMotor (w : WheelId) (s : State) : Motor :=
  { (s.wheel w).motor with
    loopTimer := some (s.inMs s.demand.tuning.loopPeriod)
    target := wheelTarget s w
    working := stepToward (s.wheel w).motor.working (if passStatus w s = .changing then 0 else wheelTarget s w)
      s.demand.tuning.rampStep }

/-- Whether its valve is held closed. -/
def passShut (w : WheelId) (s : State) : Bool :=
  wheelClosed { s.wheel w with motor := passMotor w s, state := passState w s, dirStatus := passStatus w s }

/-- Its motor after the duty stage. -/
def passDuty (w : WheelId) (s : State) : Motor :=
  dutyStage s.demand.tuning (passShut w s) (((passMotor w s).working * s.demand.tuning.kf).tdiv 100) (passMotor w s)

/-- A wheel drive in a pass before the flip. -/
theorem passRamped_eq (w : WheelId) (s : State) : passRamped w s = { s.wheel w with
    motor := passDuty w s, state := passState w s, dirStatus := passStatus w s } := by
  have decided' : passDecided w s = { targeted w s with state := passState w s, dirStatus := passStatus w s } :=
    withDirStatus_eq s _
  unfold passRamped
  rw [decided']
  rfl

theorem passDuty_kept (w : WheelId) (s : State) : passDuty w s = { (s.wheel w).motor with
    loopTimer := some (s.inMs s.demand.tuning.loopPeriod)
    target := wheelTarget s w, working := (passMotor w s).working
    computed := (passDuty w s).computed, integ := (passDuty w s).integ } := dutyStage_kept _ _ _ _

/-- Whether the valve of a wheel drive is held closed (R110). -/
theorem wheelClosed_iff (d : WheelDrive) : wheelClosed d = true ↔ d.motor.working = 0 ∧
    ((d.state = .stopped ∧ d.motor.target = 0) ∨ d.dirStatus = .changing ∨ d.state = .lockedOut) := by
  simp only [wheelClosed, Bool.and_eq_true, Bool.or_eq_true, decide_eq_true_eq, or_assoc]

/-- The flip, once the drive stands still with its valve closed (R108). -/
theorem flipStage_spec (s : State) (d : WheelDrive) :
    let flips := d.dirStatus = .changing ∧ d.motor.working = 0 ∧ d.motor.applied = 0 ∧ d.motor.speed < 10
    (flips → flipStage s d = { d with
      dirOut := wantedIn s d.state d.dirOut, dirStatus := plainStatus (wantedIn s d.state d.dirOut)
      reverseTimer := if d.state = .stallReverse then some (s.inMs s.demand.tuning.reverseTime) else d.reverseTimer })
    ∧ (¬flips → flipStage s d = d) := by
  refine ⟨fun flips => ?_, fun stays => if_neg stays⟩
  unfold flipStage
  rw [if_pos flips, wantedDir_eq]
  cases wantedIn s d.state d.dirOut <;> rfl

/-- The watch of a published drive (R113). -/
theorem stopUnwatched_spec (d : WheelDrive) :
    (Watched (stopUnwatched d) → (stopUnwatched d).confirm = d.confirm)
    ∧ (¬Watched (stopUnwatched d) → (stopUnwatched d).confirm = none) := by
  unfold stopUnwatched
  split
  · rename_i watched
    exact ⟨fun _ => rfl, fun other => absurd ((watched_iff d).mp watched) other⟩
  · rename_i other
    exact ⟨fun watched => absurd ((watched_iff d).mpr watched) other, fun _ => rfl⟩

theorem stopUnwatched_eq (d : WheelDrive) : stopUnwatched d = { d with confirm := (stopUnwatched d).confirm } := by
  unfold stopUnwatched
  split <;> rfl

theorem flipStage_eq (s : State) (d : WheelDrive) : flipStage s d = { d with
    dirOut := (flipStage s d).dirOut, dirStatus := (flipStage s d).dirStatus
    reverseTimer := (flipStage s d).reverseTimer } := by
  unfold flipStage
  split <;> rfl

/-! ## The pass -/

/-- The drive of a wheel (12.3). -/
def driveOf : WheelId → DriveId
  | .a => .a
  | .b => .b

theorem completes_congr {c c' : Instr} {s : State} {post : State → Prop} (h : c = c') (hp : Completes c' s post) :
    Completes c s post := h ▸ hp

/-- Settles O48: the stages of a pass, one after the other. -/
theorem wheelLoopPassGoesThroughItsStages : Obligations.WheelLoopPassGoesThroughItsStages := by
  intro s w due hs timer diff
  refine completes_congr (c' := .loopTimerExpiry (driveOf w)) (by cases w <;> rfl) ?_
  refine completes_due (c := .loopTimerExpiry (driveOf w)) hs (by cases w <;> exact timer) ?_
  have rule : eventRule (.loopTimerExpiry (driveOf w)) (s.reach due)
      = publishWheel w (wheelPass w (s.reach due)) (s.reach due) := by cases w <;> rfl
  rw [rule, publishWheel_told, wheelPass_eq]
  obtain ⟨fromStopped, fromRunning, fromResume, staying⟩ := wheelStateAt_spec s.demand.tuning (targeted w (s.reach due))
  obtain ⟨shut, duty⟩ := dutyStage_spec (wheelClosed_iff { s.wheel w with
      motor := passMotor w (s.reach due), state := passState w (s.reach due), dirStatus := passStatus w (s.reach due) })
    s.demand.tuning (((passMotor w (s.reach due)).working * s.demand.tuning.kf).tdiv 100) (passMotor w (s.reach due))
  have ramped := passRamped_eq w (s.reach due)
  have kept := passDuty_kept w (s.reach due)
  generalize hx : passRamped w (s.reach due) = x at ramped
  obtain ⟨flipped, unflipped⟩ := flipStage_spec (s.reach due) x
  obtain ⟨watched, unwatched⟩ := stopUnwatched_spec (flipStage (s.reach due) x)
  have flipKept := flipStage_eq (s.reach due) x
  generalize flipStage (s.reach due) x = y at flipped unflipped watched unwatched flipKept
  have published := stopUnwatched_eq y
  generalize stopUnwatched y = z at watched unwatched published
  have wheel (held : Bool) : (told (s.reach due) (wheelPut w z held (s.reach due))).wheel w = z := by cases w <;> rfl
  have zState : z.state = passState w (s.reach due) := by rw [published, flipKept, ramped]
  have zMotor : z.motor = passDuty w (s.reach due) := by rw [published, flipKept, ramped]
  have zOut : z.dirOut = y.dirOut := by rw [published]
  have zStatus : z.dirStatus = y.dirStatus := by rw [published]
  have zReverse : z.reverseTimer = y.reverseTimer := by rw [published]
  have held : decide (¬(y.state = .running ∧ y.dirStatus = .forward)) = decide (¬(z.state = .running ∧ z.dirStatus = .forward)) := by
    rw [published]
  rw [held]
  intro p d d' m m' e rest wanted status closed flips
  have d'_eq : d' = z := wheel _
  have motor : m' = passDuty w (s.reach due) := (congrArg WheelDrive.motor d'_eq).trans zMotor
  have state : d'.state = passState w (s.reach due) := (congrArg WheelDrive.state d'_eq).trans zState
  have wantedEq : wanted = wantedIn s (passState w (s.reach due)) d.dirOut := by rw [← state]
  have statusEq : status = passStatus w (s.reach due) := congrArg (statusFor · d.dirOut) wantedEq
  have target : m'.target = wheelTarget (s.reach due) w := by rw [motor, kept]
  have working : m'.working = (passMotor w (s.reach due)).working := by rw [motor, kept]
  have still : rest ↔ wheelTarget (s.reach due) w = 0 ∧ m.working = 0 ∧ m.speed < 10 := by rw [← target]
  have flipping : flips ↔ x.dirStatus = .changing ∧ x.motor.working = 0 ∧ x.motor.applied = 0 ∧ x.motor.speed < 10 := by
    rw [ramped]
    dsimp only
    have applied : m'.applied = m.applied := by rw [motor, kept]; rfl
    have speed : m'.speed = m.speed := by rw [motor, kept]; rfl
    rw [← statusEq, ← motor, applied, speed]
  have closing : closed ↔ (passMotor w (s.reach due)).working = 0
      ∧ ((passState w (s.reach due) = .stopped ∧ wheelTarget (s.reach due) w = 0)
        ∨ passStatus w (s.reach due) = .changing ∨ passState w (s.reach due) = .lockedOut) := by
    rw [← working, ← state, ← statusEq, ← target]
  refine ⟨?_, ?_, ?_, ?_, ?_, ?_, ?_, ?_, ?_, ?_, ?_, ?_, ?_, ?_, ?_, ?_⟩
  · have same : ({ m with
        target := m'.target, working := m'.working, computed := m'.computed, integ := m'.integ
        loopTimer := some (max s.clock due + p.loopPeriod.toNat * 1000) } : Motor) = z.motor := by
      rw [target, working, motor, zMotor]; exact kept.symm
    have whole : ({ d with
        motor := z.motor, state := z.state, dirOut := z.dirOut, dirStatus := z.dirStatus, confirm := z.confirm
        reverseTimer := z.reverseTimer } : WheelDrive) = z := by
      rw [published, flipKept, ramped]; rfl
    rw [same, d'_eq, whole]
    cases w <;> rfl
  · exact (linksKept_iff _ _ _).mpr rfl
  · intro h; rw [target]; exact wheelTarget_lockedOut (s := s.reach due) h
  · intro h; rw [target]; exact wheelTarget_reversing (s := s.reach due) h
  · intro h h'; rw [target]; exact wheelTarget_composed (s := s.reach due) diff h h'
  · intro h; rw [state, target]; exact fromStopped h
  · intro h
    rw [state]
    exact ⟨fun r => (fromRunning h).1 (still.mp r), fun r => (fromRunning h).2 (mt still.mpr r)⟩
  · intro h
    obtain ⟨fast, stop, on, turning⟩ := fromResume h
    rw [state]
    exact ⟨fast, fun f slow r => stop f slow (still.mp r), fun f slow r => on f slow (mt still.mpr r), turning⟩
  · intro h; rw [state]; exact staying h
  · rw [target, working, statusEq]; exact stepToward_stepTo _ _ _
  · intro c; rw [motor]; exact shut (closing.mp c)
  · intro c; rw [working, motor]; exact duty (mt closing.mpr c)
  · intro c
    have turned := flipped (flipping.mp c)
    rw [wantedEq, d'_eq, zOut, zStatus, zReverse, zState, turned, ramped]
    exact ⟨rfl, rfl, rfl⟩
  · intro c
    have stays := unflipped (mt flipping.mpr c)
    rw [statusEq, d'_eq, zOut, zStatus, zReverse, stays, ramped]
    exact ⟨rfl, rfl, rfl⟩
  · intro h; rw [d'_eq] at h ⊢; rw [watched h, flipKept, ramped]; rfl
  · intro h; rw [d'_eq] at h ⊢; exact unwatched h

end Sys2Proof.Machine
end

section
/-! The alignment evaluation (R81 to R96). -/

namespace Sys2Proof.Machine

open Sys2Proof.Safety

/-! ## What an evaluation reads (R81) -/

/-- A scan holds inclinations and twist when the three channels are present. -/
theorem inclination_some {r : ScanRecord} {ix iy tw : ScanValue} (hx : entryOf r 2 = some ix) (hy : entryOf r 3 = some iy)
    (ht : entryOf r 4 = some tw) : r.inclination = some { ix := ix, iy := iy, tw := tw } := by
  have x : r.get .ix = some ix := hx
  have y : r.get .iy = some iy := hy
  have t : r.get .tw = some tw := ht
  simp only [ScanRecord.inclination, x, y, t]

theorem inclination_none {r : ScanRecord} (h : entryOf r 2 = none ∨ entryOf r 3 = none ∨ entryOf r 4 = none) :
    r.inclination = none := by
  have h : r.get .ix = none ∨ r.get .iy = none ∨ r.get .tw = none := h
  unfold ScanRecord.inclination
  split
  · rename_i x y t
    rcases h with e | e | e
    · exact nomatch x.symm.trans e
    · exact nomatch y.symm.trans e
    · exact nomatch t.symm.trans e
  · rfl

/-- The current reference is the record of the reference station, present and not stale (R60). -/
theorem currentReference_iff {t : StationTable} (ordered : Ordered t.records) {r : Station} :
    t.currentReference = some r ↔ ∃ k, t.reference = some k ∧ r ∈ t.records ∧ r.index = k ∧ r.stale = false := by
  unfold StationTable.currentReference
  cases t.reference with
  | none => simp
  | some k =>
    dsimp only
    rw [Option.filter_eq_some_iff, findStation_iff ordered, Bool.not_eq_true']
    constructor
    · rintro ⟨⟨hr, at_⟩, fresh⟩
      exact ⟨k, rfl, hr, at_, fresh⟩
    · rintro ⟨j, e, hr, at_, fresh⟩
      cases e
      exact ⟨⟨hr, at_⟩, fresh⟩

/-- The reference of an evaluation (R81, R85). -/
theorem referenceOf_iff {s : State} (ordered : Ordered s.table.records) (depth x y : Int) :
    referenceOf s.geometry s.table = some { depth := depth, offsetX := x, offsetY := y } ↔ HasReference s depth x y := by
  unfold referenceOf HasReference
  cases e : s.table.reference with
  | none =>
    constructor
    · intro eq
      obtain ⟨rfl, rfl, rfl⟩ := Reference.mk.inj (Option.some.inj eq)
      exact .inl ⟨rfl, rfl, rfl, rfl⟩
    · rintro (⟨-, rfl, rfl, rfl⟩ | ⟨k, some_, -⟩)
      · rfl
      · exact nomatch some_
  | some k =>
    dsimp only
    rw [Option.map_eq_some_iff]
    constructor
    · rintro ⟨r, hr, eq⟩
      obtain ⟨j, ej, mem, at_, fresh⟩ := (currentReference_iff ordered).mp hr
      obtain rfl : k = j := Option.some.inj (e.symm.trans ej)
      obtain ⟨rfl, rfl, rfl⟩ := Reference.mk.inj eq
      exact .inr ⟨k, rfl, rfl, r, mem, at_, fresh, rfl, rfl⟩
    · rintro (⟨none_, -⟩ | ⟨j, ej, rfl, r, mem, at_, fresh, rfl, rfl⟩)
      · exact nomatch none_
      · cases ej
        exact ⟨r, (currentReference_iff ordered).mpr ⟨k, e, mem, at_, fresh⟩, rfl⟩

theorem referenceOf_none {s : State} (ordered : Ordered s.table.records) (h : ∀ depth x y, ¬HasReference s depth x y) :
    referenceOf s.geometry s.table = none := by
  cases e : referenceOf s.geometry s.table with
  | none => rfl
  | some ref => exact absurd ((referenceOf_iff ordered _ _ _).mp e) (h _ _ _)

/-! ## The branches (R81) -/

theorem percent_eq (x : Int) : clamp 0 100 x = percent x := clamp_eq (by decide) x

theorem evaluateAlign_auto {s : State} (r : ScanRecord) (active : s.panel = .active) (auto : s.align.steer = .auto)
    (referenced : s.depth.ref ≠ .unreferenced) : evaluateAlign r s = match referenceOf s.geometry s.table with
      | none => holdStep .notCurrent s
      | some ref => match r.inclination with
        | none => holdStep .inputAbsent s
        | some i => if i.saturated then holdStep .inputSaturated s else trackStep ref r.seq i s :=
  (if_neg (not_not.mpr active)).trans ((if_neg (by rw [auto]; nofun)).trans (if_neg referenced))

/-- Settles O43: the branches in their order, and the stages of the last one. -/
theorem alignmentEvaluatesInOrder : Obligations.AlignmentEvaluatesInOrder := by
  intro s r geometry table demand a u p holds
  obtain ⟨-, -, ranges, -⟩ := demand
  obtain ⟨dbX, -⟩ : 0 ≤ p.dbX ∧ p.dbX ≤ 50000 := ranges 0 _ rfl
  obtain ⟨gX, -⟩ : 0 ≤ p.gX ∧ p.gX ≤ 200 := ranges 2 _ rfl
  obtain ⟨dMax, -⟩ : 0 ≤ p.dMax ∧ p.dMax ≤ 100 := ranges 4 _ rfl
  obtain ⟨spacing, -⟩ : 100 ≤ s.geometry.spacing ∧ s.geometry.spacing ≤ 500 := fieldOk_of_check geometry 2
  refine ⟨fun idle => if_pos idle, fun active manual => ?_, fun active auto => ⟨fun unreferenced => ?_,
    fun referenced => ⟨fun none_ => ?_, fun depth x y ref => ⟨fun absent => ?_, fun ix iy tw hx hy ht =>
      ⟨fun saturated => ?_, fun cx cy ct => ?_⟩⟩⟩⟩⟩
  · have stepped : u = manualStep s := (if_neg (not_not.mpr active)).trans (if_pos manual)
    have toward := stepToward_stepTo a.diff (clampDiff p s.demand.wheel.manualDiff) p.rStep
    have goal : clampDiff p s.demand.wheel.manualDiff = max (-p.dMax) (min p.dMax s.demand.wheel.manualDiff) :=
      clamp_eq (by omega) _
    rw [goal] at toward
    rw [stepped]
    refine ⟨?_, by rw [← goal] at toward ⊢; exact toward⟩
    simp only [manualStep, percent_eq]
    rfl
  · have unread : evaluateAlign r s = holdStep .unreferenced s :=
      (if_neg (not_not.mpr active)).trans ((if_neg (by rw [auto]; nofun)).trans (if_pos unreferenced))
    exact unread
  all_goals have branch := evaluateAlign_auto r active auto referenced
  · rw [referenceOf_none table.1 none_] at branch
    exact branch
  all_goals rw [(referenceOf_iff table.1 depth x y).mpr ref] at branch
  · rw [inclination_none absent] at branch
    exact branch
  all_goals rw [inclination_some hx hy ht] at branch
  · refine branch.trans (if_pos ?_)
    simp only [Inclination.saturated, Bool.or_eq_true, or_assoc]
    exact saturated
  · have tracked : u = trackStep { depth := depth, offsetX := x, offsetY := y } r.seq { ix := ix, iy := iy, tw := tw } s := by
      refine branch.trans (if_neg ?_)
      simp only [Inclination.saturated, cx, cy, ct]
      nofun
    rw [tracked]
    refine ⟨stageOf s { depth := depth, offsetX := x, offsetY := y } r.seq { ix := ix, iy := iy, tw := tw }, rfl, rfl, rfl,
      clamp_eq (by omega) _, rfl, rfl, roundAway_roundsTo _ (by decide), roundAway_roundsTo _ (by decide),
      rawDemand_agrees p dMax gX dbX _, gained_agrees 1000, gained_agrees 10, stepToward_stepTo _ _ _, ?_⟩
    simp only [trackStep, mixed, percent_eq]
    rfl

end Sys2Proof.Machine
end

section
/-! What a valid scan does to the Station Table, the drives and the Return Balance Unit (R55, R56, R113, R120, R121, R147,
R148). -/

namespace Sys2Proof.Machine

open Sys2Proof.Safety

/-! ## Clean readings -/

theorem entryOf_pressure (r : ScanRecord) (w : WheelId) : entryOf r (pressureCode w) = r.get (pressureChannel w) := by
  cases w <;> rfl

theorem clean_some {r : ScanRecord} {c : Channel} {v : ScanValue} (h : r.get c = some v) (clean : v.saturated = false) :
    r.clean c = some v.value := by
  unfold ScanRecord.clean
  rw [h]
  exact if_neg (by rw [clean]; nofun)

theorem clean_none {r : ScanRecord} {c : Channel} (h : ∀ v, r.get c = some v → v.saturated = true) : r.clean c = none := by
  unfold ScanRecord.clean
  cases e : r.get c with
  | none => rfl
  | some v => exact if_pos (h v e)

theorem clean_iff {r : ScanRecord} {c : Channel} {counts : Int} :
    r.clean c = some counts ↔ ∃ v, r.get c = some v ∧ v.saturated = false ∧ v.value = counts := by
  constructor
  · intro h
    unfold ScanRecord.clean at h
    split at h
    · rename_i v e
      split at h
      · exact nomatch h
      · rename_i other
        exact ⟨v, e, Bool.eq_false_of_not_eq_true other, Option.some.inj h⟩
    · exact nomatch h
  · rintro ⟨v, e, clean, rfl⟩
    exact clean_some e clean

/-! ## The drives (R113, R120, R121) -/

/-- A wheel drive after a valid scan. -/
def wheelAfter (r : ScanRecord) (w : WheelId) (s : State) : WheelDrive :=
  match r.clean (pressureChannel w) with
  | some counts => { s.wheel w with
      confirm :=
        if (s.wheel w).watched then watch (stallCondition s.demand.tuning (s.wheel w).motor (counts * 10)) (s.wheel w).confirm
          (s.inMs s.demand.tuning.confirmTime)
        else none
      loaded := s.demand.tuning.stallPressure ≤ counts * 10
      bands := if s.panel = .active then (s.wheel w).bands.modify (bandOf counts) fun c => c.tick.1 else (s.wheel w).bands }
  | none => stopUnwatched (s.wheel w)

/-- Whether a valid scan brings a tally of a wheel drive to its notice. -/
def wheelNotice (r : ScanRecord) (w : WheelId) (s : State) : Bool :=
  match r.clean (pressureChannel w) with
  | some counts => decide (s.panel = .active) && bandNotice (s.wheel w).bands (bandOf counts)
  | none => false

theorem wheelScan_eq {r : ScanRecord} (valid : r.valid = true) (w : WheelId) (s : State) : wheelScan w r s =
    { s.setWheel w (wheelAfter r w s) with links := raisedLinks (flagsOfList (noticeFlags (wheelNotice r w s))) s.links } := by
  have quiet (n : Links) : raisedLinks (flagsOfList (noticeFlags false)) n = n := raisedLinks_zero n
  unfold wheelScan wheelAfter wheelNotice
  rw [valid]
  cases r.clean (pressureChannel w) with
  | none => rw [quiet]; cases w <;> rfl
  | some counts =>
    dsimp only
    rw [raiseIf_eq, flagsOfList_noticeFlags]
    cases w <;> rfl

theorem tick_notices (c : Counter) : c.tick.2 = notices c := by
  unfold Counter.tick notices counterMax counterNotice
  obtain ⟨value, near⟩ := c
  dsimp only
  split
  · rename_i top
    have other : (value + 1 == 12582912) = false := beq_eq_false_iff_ne.mpr (by omega)
    rw [other]
    rfl
  · by_cases at_ : value + 1 = 12582912
    · rw [at_]
      cases near <;> rfl
    · have other : (value + 1 == 12582912) = false := beq_eq_false_iff_ne.mpr at_
      rw [other, decide_eq_false at_]
      rfl

theorem bandNotice_iff {bands : List Counter} {k : Nat} :
    bandNotice bands k = true ↔ ∃ c, bands[k]? = some c ∧ notices c = true := by
  unfold bandNotice
  cases e : bands[k]? with
  | none => simp
  | some c => simp [tick_notices]

theorem wheelNotice_iff {r : ScanRecord} {w : WheelId} {s : State} : wheelNotice r w s = true ↔ s.panel = .active
    ∧ ∃ (v : ScanValue) (k : Nat) (c : Counter), entryOf r (pressureCode w) = some v ∧ v.saturated = false
      ∧ InBand ((v.value * 100).tdiv 4095) k ∧ (s.wheel w).bands[k]? = some c ∧ notices c = true := by
  rw [entryOf_pressure]
  unfold wheelNotice
  cases e : r.clean (pressureChannel w) with
  | none =>
    refine iff_of_false nofun ?_
    rintro ⟨-, v, k, c, present, clean, -⟩
    exact nomatch e.symm.trans (clean_some present clean)
  | some counts =>
    obtain ⟨v, present, clean, rfl⟩ := clean_iff.mp e
    simp only [Bool.and_eq_true, decide_eq_true_eq, bandNotice_iff]
    refine and_congr_right fun _ => ⟨?_, ?_⟩
    · rintro ⟨c, at_, notice⟩
      exact ⟨v, _, c, present, clean, (bandOf_inBand _ _).mpr rfl, at_, notice⟩
    · rintro ⟨v', k, c, present', clean', band, at_, notice⟩
      obtain rfl : v = v' := Option.some.inj (present.symm.trans present')
      exact ⟨c, (bandOf_inBand _ _).mp band ▸ at_, notice⟩

theorem tallyNoticed_iff {r : ScanRecord} {s : State} :
    (wheelNotice r .a s || wheelNotice r .b s) = true ↔ TallyNoticed s r := by
  rw [Bool.or_eq_true, wheelNotice_iff, wheelNotice_iff, ← and_or_left]
  refine and_congr_right fun _ => ⟨?_, ?_⟩
  · rintro (h | h)
    · exact ⟨.a, h⟩
    · exact ⟨.b, h⟩
  · rintro ⟨w, h⟩
    cases w
    · exact .inl h
    · exact .inr h

/-- The drives after a valid scan: each wheel drive by its own pressure, and the notices of the two. -/
theorem driveScan_eq {r : ScanRecord} (valid : r.valid = true) (s : State) : driveScan r s = { s with
    drives := { s.drives with a := wheelAfter r .a s, b := wheelAfter r .b s }
    links := raisedLinks (flagsOfList (noticeFlags (wheelNotice r .a s || wheelNotice r .b s))) s.links } := by
  unfold driveScan
  rw [wheelScan_eq valid .a, wheelScan_eq valid .b, ← raisedLinks_notices]
  rfl

theorem driveScan_wheel {r : ScanRecord} (valid : r.valid = true) (s : State) (w : WheelId) :
    (driveScan r s).wheel w = wheelAfter r w s := by
  rw [driveScan_eq valid]
  cases w <;> rfl

/-- A wheel drive after a valid scan with its pressure clean. -/
theorem wheelAfter_clean {r : ScanRecord} {w : WheelId} {s : State} {v : ScanValue} (h : entryOf r (pressureCode w) = some v)
    (clean : v.saturated = false) : wheelAfter r w s = { s.wheel w with
      confirm :=
        if (s.wheel w).watched then watch (stallCondition s.demand.tuning (s.wheel w).motor (v.value * 10)) (s.wheel w).confirm
          (s.inMs s.demand.tuning.confirmTime)
        else none
      loaded := s.demand.tuning.stallPressure ≤ v.value * 10
      bands := if s.panel = .active then (s.wheel w).bands.modify (bandOf v.value) fun c => c.tick.1
        else (s.wheel w).bands } := by
  unfold wheelAfter
  rw [clean_some (entryOf_pressure r w ▸ h) clean]

theorem wheelAfter_unclean {r : ScanRecord} {w : WheelId} {s : State}
    (h : ∀ v, entryOf r (pressureCode w) = some v → v.saturated = true) : wheelAfter r w s = stopUnwatched (s.wheel w) := by
  unfold wheelAfter
  rw [clean_none (entryOf_pressure r w ▸ h)]

theorem stallCondition_iff (t : TuningGroup) (m : Motor) (kPa : Int) : stallCondition t m kPa = true
    ↔ t.stallPressure ≤ kPa ∧ m.speed < t.stallSpeed ∧ t.stallSpeed ≤ m.working := by
  simp [stallCondition, and_assoc]

theorem bands_le {s : State} (h : CounterLaw s) (w : WheelId) : ∀ c ∈ (s.wheel w).bands, c.value ≤ 16777215 := by
  obtain ⟨-, -, all⟩ := h
  intro c hc
  refine all c ?_
  cases w with
  | a => have hc : c ∈ s.drives.a.bands := hc; simp [counters, Drives.counters, hc]
  | b => have hc : c ∈ s.drives.b.bands := hc; simp [counters, Drives.counters, hc]

/-- A tally counts as R122 says. -/
theorem modify_tick {bands : List Counter} (h : ∀ c ∈ bands, c.value ≤ 16777215) (k : Nat) :
    bands.modify k (fun c => c.tick.1) = bands.modify k tickOf := by
  refine List.ext_getElem? fun i => ?_
  rw [List.getElem?_modify, List.getElem?_modify]
  cases e : bands[i]? with
  | none => rfl
  | some c =>
    simp only [Option.map_eq_map, Option.map_some, tick_eq (h c (List.mem_of_getElem? e))]

/-! ## The Station Table (R55, R56) -/

/-- The accumulator with a sample added (R55). -/
theorem accumulator_add (a : Accumulator) (ix iy tw : ScanValue) :
    let seen := a.clampedSeen || ix.saturated || iy.saturated || tw.saturated
    a.add { ix := ix, iy := iy, tw := tw } = if a.count + 1 = 4096 then
        { sumX := (a.sumX + ix.value).tdiv 2, sumY := (a.sumY + iy.value).tdiv 2, sumT := (a.sumT + tw.value).tdiv 2
          count := 2048, clampedSeen := seen }
      else { sumX := a.sumX + ix.value, sumY := a.sumY + iy.value, sumT := a.sumT + tw.value, count := a.count + 1
             clampedSeen := seen } := by
  simp only [Accumulator.add, Inclination.saturated, Bool.or_assoc]

/-! ## The Return Balance Unit (R147, R148) -/

theorem blockedCondition_iff (d : PumpGroup) (ps pd : Int) :
    blockedCondition d ps pd = true ↔ ps < d.psBlock ∨ d.pdBlock < pd := by
  simp [blockedCondition]

theorem clearCondition_iff (d : PumpGroup) (ps pd : Int) :
    clearCondition d ps pd = true ↔ d.psBlock + d.psHysteresis ≤ ps ∧ pd ≤ d.pdBlock - d.pdHysteresis := by
  simp [clearCondition]

theorem watch_congr {c : Bool} {p : Prop} (h : c = true ↔ p) (old : Timer) (start : Nat) : Watch p old (watch c old start) start :=
  propext h ▸ watch_spec c old start

/-- Settles O42: the table, each wheel drive, the notices and the return balance. -/
theorem scanConsumersTakeTheScan : Obligations.ScanConsumersTakeTheScan := by
  intro s r valid
  refine ⟨fun ix iy tw hx hy ht => ?_, fun absent => ?_, fun w v present clean law k inBand => ?_, fun w unclean => ?_, ?_,
    fun ps pd hs cs hd cd => ?_, fun unclean => ?_⟩
  · intro a seen x y w
    unfold stationScan
    rw [valid, inclination_some hx hy ht]
    dsimp only
    rw [accumulator_add]
    have counts : (decide (s.panel = .active) && s.depth.ref != .unreferenced) = true
        ↔ ¬(s.panel ≠ .active ∨ s.depth.ref = .unreferenced) := by
      rw [Bool.and_eq_true, decide_eq_true_eq, bne_iff_ne, not_or, not_not]
    by_cases idle : s.panel ≠ .active ∨ s.depth.ref = .unreferenced
    · rw [if_pos idle, if_neg fun c => counts.mp c idle]
    · rw [if_neg idle, if_pos (counts.mpr idle)]
  · unfold stationScan
    rw [valid, inclination_none absent]
  · intro d d' p
    have after : d' = { d with
        confirm := if d.watched then watch (stallCondition p d.motor (v.value * 10)) d.confirm (s.inMs p.confirmTime) else none
        loaded := p.stallPressure ≤ v.value * 10
        bands := if s.panel = .active then d.bands.modify k fun c => c.tick.1 else d.bands } := by
      rw [← (bandOf_inBand v.value k).mp inBand]
      exact (driveScan_wheel valid s w).trans (wheelAfter_clean present clean)
    have confirm : d'.confirm
        = if d.watched then watch (stallCondition p d.motor (v.value * 10)) d.confirm (s.inMs p.confirmTime) else none := by
      rw [after]
    refine ⟨?_, fun other => ?_, fun watched => ?_, ?_⟩
    · generalize d' = x at after
      rw [after]
    · rw [confirm]; exact if_neg (mt (watched_iff d).mp other)
    · rw [confirm, if_pos ((watched_iff d).mpr watched)]
      exact watch_congr (stallCondition_iff p d.motor _) _ _
    · rw [after, modify_tick (bands_le law w)]
  · rw [driveScan_wheel valid, wheelAfter_unclean unclean]
    unfold stopUnwatched
    exact ⟨fun watched => if_pos ((watched_iff _).mpr watched), fun other => if_neg (mt (watched_iff _).mp other)⟩
  · refine ⟨wheelNotice r .a s || wheelNotice r .b s, tallyNoticed_iff, (linksKept_iff _ _ _).mpr ?_, ?_⟩ <;>
      rw [driveScan_eq valid]
  · intro p t
    have suction : r.clean .ps = some ps.value := clean_some hs cs
    have discharge : r.clean .pd = some pd.value := clean_some hd cd
    have scanned : t = match s.ret.state with
      | .stopped => s
      | .blocked => { s with ret := { s.ret with
          recovery := watch (clearCondition p ps.value pd.value) s.ret.recovery (s.inMs p.recoveryTime) } }
      | _ => { s with ret := { s.ret with
          confirm := watch (blockedCondition p ps.value pd.value) s.ret.confirm (s.inMs p.confirmTime) } } := by
      simp only [t, returnScan, valid, suction, discharge]
      cases s.ret.state <;> rfl
    rw [scanned]
    cases state : s.ret.state with
    | stopped => exact ⟨rfl, fun _ => rfl, fun other => absurd rfl other, nofun⟩
    | blocked =>
      exact ⟨rfl, nofun, fun _ other => absurd rfl other, fun _ => ⟨rfl, watch_congr (clearCondition_iff p _ _) _ _⟩⟩
    | _ => exact ⟨rfl, nofun, fun _ _ => ⟨rfl, watch_congr (blockedCondition_iff p _ _) _ _⟩, nofun⟩
  · unfold returnScan
    rcases unclean with h | h
    · have suction : r.clean .ps = none := clean_none h
      rw [valid, suction]
    · have discharge : r.clean .pd = none := clean_none h
      rw [valid, discharge]
      cases r.clean .ps <;> rfl

end Sys2Proof.Machine
end

section
/-! The five consumers of a published scan, together (R31, R94). -/

namespace Sys2Proof.Machine

open Sys2Proof.Safety

/-! ## Each consumer, as one record -/

/-- The Station Table takes a scan: its last inclination and its accumulator (R55, R56). -/
theorem stationScan_eq (r : ScanRecord) (s : State) : stationScan r s = { s with table := { s.table with
    lastIncl := (stationScan r s).table.lastIncl, acc := (stationScan r s).table.acc } } := by
  unfold stationScan
  split <;> rfl

/-- The Return Balance Unit takes a scan: its two watches (R147, R148). -/
theorem returnScan_eq (r : ScanRecord) (s : State) : returnScan r s = { s with ret := { s.ret with
    confirm := (returnScan r s).ret.confirm, recovery := (returnScan r s).ret.recovery } } := by
  unfold returnScan
  split
  · dsimp only
    split <;> rfl
  · rfl

/-- Whether a valid scan puts some plate into FAULT. -/
def jammed (r : ScanRecord) (s : State) : Bool := jams r .af s || jams r .ar s || jams r .bf s || jams r .br s

theorem jammed_iff (r : ScanRecord) (s : State) : jammed r s = true ↔ ∃ i, Jams s r i := by
  unfold jammed
  simp only [Bool.or_eq_true, jams_iff]
  constructor
  · rintro (((h | h) | h) | h) <;> exact ⟨_, h⟩
  · rintro ⟨i, h⟩
    cases i
    · exact .inl (.inl (.inl h))
    · exact .inl (.inl (.inr h))
    · exact .inl (.inr h)
    · exact .inr h

/-- The flag of a jam. -/
def jamFlags (b : Bool) : List Flag := if b then [.plateFault] else []

/-- The plates after a valid scan. -/
def platesAfter (r : ScanRecord) (s : State) : Plates :=
  { af := plateAfter r .af (overridden s), ar := plateAfter r .ar (overridden s), bf := plateAfter r .bf (overridden s)
    br := plateAfter r .br (overridden s), override := overrideCauses s }

theorem plateScan_eq {r : ScanRecord} (valid : r.valid = true) (s : State) : plateScan r s = { s with
    plates := platesAfter r s, links := raisedLinks (flagsOfList (jamFlags (jammed r s))) s.links } := by
  have flags : flagsOfList (jamFlags (jammed r s)) = if jammed r s then Flag.plateFault.only else 0 := by
    unfold jamFlags
    cases jammed r s
    · rfl
    · rw [if_pos rfl, if_pos rfl, flagsOfList_cons, flagsOfList_nil]
      exact BitVec.or_zero
  rw [flags]
  refine (if_pos valid).trans ((plates_judged r (overridden s)).trans ?_)
  simp only [jams_overridden]
  rfl

/-! ## The consumers together -/

/-- The state after the Station Table, the drives and the Return Balance Unit have taken a valid scan. -/
def scanTaken (r : ScanRecord) (s : State) : State :=
  { s with
    draws := s.drawn.draws
    table := (stationScan r s).table
    drives := (driveScan r s).drives
    ret := (returnScan r s).ret
    links := raisedLinks (flagsOfList (noticeFlags (wheelNotice r .a s || wheelNotice r .b s))) s.links }

/-- Two states that a scan's consumers read alike: they differ in the acquisition, the links, the reasons and the line of
the feed governor, the accumulator and the last inclination, and the watches of the return balance. -/
structure ReadAlike (s u : State) : Prop where
  clock : u.clock = s.clock
  panel : u.panel = s.panel
  geometry : u.geometry = s.geometry
  ref : u.depth.ref = s.depth.ref
  count : u.depth.count = s.depth.count
  lastFeed : u.depth.lastFeed = s.depth.lastFeed
  reference : u.table.reference = s.table.reference
  records : u.table.records = s.table.records
  align : u.align = s.align
  retState : u.ret.state = s.ret.state
  demand : u.demand = s.demand

theorem wheelAfter_congr {r : ScanRecord} {w : WheelId} {s u : State} (h : ReadAlike s u) (drives : u.drives = s.drives) :
    wheelAfter r w u = wheelAfter r w s := by
  unfold wheelAfter State.wheel State.inMs
  rw [h.panel, h.clock, h.demand, drives]

theorem wheelNotice_congr {r : ScanRecord} {w : WheelId} {s u : State} (h : ReadAlike s u) (drives : u.drives = s.drives) :
    wheelNotice r w u = wheelNotice r w s := by
  unfold wheelNotice State.wheel
  rw [h.panel, drives]

theorem stationScan_congr {r : ScanRecord} {s u : State} (h : ReadAlike s u) (table : u.table = s.table) :
    (stationScan r u).table = (stationScan r s).table := by
  unfold stationScan
  rw [h.panel, h.ref, table]
  cases r.valid <;> cases r.inclination <;> first | exact table | rfl

theorem returnScan_congr {r : ScanRecord} {s u : State} (h : ReadAlike s u) (ret : u.ret = s.ret) :
    (returnScan r u).ret = (returnScan r s).ret := by
  unfold returnScan State.inMs
  rw [h.clock, h.demand, ret]
  cases r.valid <;> cases r.clean .ps <;> cases r.clean .pd <;> first | exact ret | skip
  cases s.ret.state <;> first | exact ret | rfl

theorem evaluateAlign_congr {r : ScanRecord} {s u : State} (h : ReadAlike s u) : evaluateAlign r u = evaluateAlign r s := by
  have currentReference : u.table.currentReference = s.table.currentReference := by
    unfold StationTable.currentReference; rw [h.reference, h.records]
  have reference : referenceOf u.geometry u.table = referenceOf s.geometry s.table := by
    unfold referenceOf; rw [h.reference, h.geometry, currentReference]
  unfold evaluateAlign inactiveStep manualStep holdStep trackStep stageOf State.depthNow
  rw [h.panel, h.align, h.ref, h.demand, h.geometry, h.count, ← h.geometry, reference, h.geometry]

theorem platesAfter_congr {r : ScanRecord} {s u : State} (h : ReadAlike s u) (plates : u.plates = s.plates) :
    platesAfter r u = platesAfter r s := by
  have causes : overrideCauses u = overrideCauses s := by
    unfold overrideCauses; rw [h.panel, h.lastFeed, h.demand, h.retState]
  have plate (i : PlateId) : plateAfter r i (overridden u) = plateAfter r i (overridden s) := by
    rw [plateAfter_overridden, plateAfter_overridden, causes]
    unfold State.plate State.inMs
    rw [plates, h.align, h.demand, h.clock]
  unfold platesAfter
  rw [plate, plate, plate, plate, causes]

theorem jammed_congr {r : ScanRecord} {s u : State} (plates : u.plates = s.plates) : jammed r u = jammed r s := by
  unfold jammed jams State.plate
  rw [plates]

/-- The three consumers that meet none of the others. -/
theorem scanTaken_eq {r : ScanRecord} (valid : r.valid = true) (s : State) :
    returnScan r (driveScan r (stationScan r s.drawn)) = scanTaken r s := by
  have alike : ReadAlike s { s.drawn with table := (stationScan r s).table } := by
    rw [stationScan_eq]
    exact ⟨rfl, rfl, rfl, rfl, rfl, rfl, rfl, rfl, rfl, rfl, rfl⟩
  have stations : stationScan r s.drawn = { s.drawn with table := (stationScan r s).table } := by
    rw [← stationScan_congr (s := s) (u := s.drawn) ⟨rfl, rfl, rfl, rfl, rfl, rfl, rfl, rfl, rfl, rfl, rfl⟩ rfl,
      stationScan_eq r s.drawn]
  have drives (w : WheelId) := wheelAfter_congr (r := r) (w := w) alike rfl
  have notices (w : WheelId) := wheelNotice_congr (r := r) (w := w) alike rfl
  rw [stations, driveScan_eq valid, drives .a, drives .b, notices .a, notices .b]
  unfold scanTaken
  rw [driveScan_eq valid s]
  generalize hu : ({ s.drawn with
    table := (stationScan r s).table
    drives := { s.drives with a := wheelAfter r .a s, b := wheelAfter r .b s }
    links := raisedLinks (flagsOfList (noticeFlags (wheelNotice r .a s || wheelNotice r .b s))) s.links } : State) = u
  have taken : (returnScan r u).ret = (returnScan r s).ret := by
    subst hu
    exact returnScan_congr ⟨alike.clock, alike.panel, alike.geometry, alike.ref, alike.count, alike.lastFeed, alike.reference,
      alike.records, alike.align, alike.retState, alike.demand⟩ rfl
  have whole : returnScan r u = { u with ret := (returnScan r u).ret } := by rw [returnScan_eq]
  refine Eq.trans ?_ (whole.trans ?_)
  · rw [← hu]; rfl
  · rw [taken, ← hu]
    rfl

/-- The five consumers, in the order that the free choice gives the last two. -/
theorem consumers_valid {r : ScanRecord} (valid : r.valid = true) (s : State) : ∃ ps : Plates,
    (ps = (plateScan r s).plates ∨ ps = (plateScan r { s with align := evaluateAlign r s }).plates)
    ∧ consumers r s = { scanTaken r s with
        align := evaluateAlign r s, plates := ps
        links := raisedLinks (flagsOfList (jamFlags (jammed r s))) (scanTaken r s).links } := by
  have alike : ReadAlike s (scanTaken r s) := by
    unfold scanTaken
    rw [stationScan_eq, returnScan_eq]
    exact ⟨rfl, rfl, rfl, rfl, rfl, rfl, rfl, rfl, rfl, rfl, rfl⟩
  have aligned (u : State) : alignScan r u = { u with align := evaluateAlign r u } := if_pos valid
  have jams_ : jammed r (scanTaken r s) = jammed r s := jammed_congr rfl
  unfold consumers
  dsimp only
  rw [scanTaken_eq valid]
  split
  · refine ⟨platesAfter r { s with align := evaluateAlign r s }, .inr (by rw [plateScan_eq valid]), ?_⟩
    rw [aligned, evaluateAlign_congr alike, plateScan_eq valid]
    have plates := platesAfter_congr (r := r) (s := { s with align := evaluateAlign r s })
      (u := { scanTaken r s with align := evaluateAlign r s }) ⟨alike.clock, alike.panel, alike.geometry, alike.ref,
        alike.count, alike.lastFeed, alike.reference, alike.records, rfl, alike.retState, alike.demand⟩ rfl
    rw [plates, ← jams_]
    rfl
  · refine ⟨platesAfter r s, .inl (by rw [plateScan_eq valid]), ?_⟩
    rw [plateScan_eq valid, platesAfter_congr alike rfl, jams_, aligned]
    have judged := evaluateAlign_congr (r := r) (s := s) (u := { scanTaken r s with
      plates := platesAfter r s
      links := raisedLinks (flagsOfList (jamFlags (jammed r s))) (scanTaken r s).links }) ⟨alike.clock, alike.panel, alike.geometry, alike.ref,
        alike.count, alike.lastFeed, alike.reference, alike.records, alike.align, alike.retState, alike.demand⟩
    rw [judged]

/-- An invalid scan is taken by none of them. -/
theorem consumers_invalid {r : ScanRecord} (invalid : r.valid = false) (s : State) : consumers r s = s.drawn := by
  unfold consumers stationScan driveScan wheelScan returnScan alignScan plateScan
  rw [invalid]
  dsimp only
  split <;> rfl

end Sys2Proof.Machine
end

section
/-! The last conversion of a scan: its judgement, its record and what follows (R19, R29 to R31). -/

namespace Sys2Proof.Machine

open Sys2Proof.Safety

/-! ## The judgement (R29, R30) -/

/-- The unit after the judgement of a scan. -/
def judgedAcq (valid : Bool) (a : Acquisition) : Acquisition :=
  { a with
    invalidCount := if valid then 0 else if a.invalidCount < 5 then a.invalidCount + 1 else a.invalidCount
    fault := if valid then false else a.fault || a.invalidCount == 4 }

/-- The feed governor's reason of the FAULT condition after the judgement of a scan. -/
def faultReason (valid : Bool) (s : State) : Bool :=
  if valid then false else s.depth.reasons.acqFault || s.acq.invalidCount == 4

/-- The depth counter after the judgement of a scan: the governor is told by a valid scan and by the fifth invalid one. -/
def judgedDepth (valid : Bool) (s : State) : DepthCounter :=
  if valid = true ∨ s.acq.invalidCount = 4 then Governed s.depth { s.depth.reasons with acqFault := faultReason valid s }
  else s.depth

/-- The flag of the fifth invalid scan in a row. -/
def invalidFlags (valid : Bool) (s : State) : List Flag :=
  if valid = false ∧ s.acq.invalidCount = 4 then [.sensorFault] else []

theorem faultReason_kept {valid : Bool} {s : State} (h : ¬(valid = true ∨ s.acq.invalidCount = 4)) :
    faultReason valid s = s.depth.reasons.acqFault := by
  obtain ⟨invalid, other⟩ := not_or.mp h
  unfold faultReason
  rw [if_neg invalid, beq_eq_false_iff_ne.mpr other, Bool.or_false]

theorem judgedDepth_frame (valid : Bool) (s : State) : judgedDepth valid s = { s.depth with
    reasons := { s.depth.reasons with acqFault := faultReason valid s }, feedHold := (judgedDepth valid s).feedHold } := by
  unfold judgedDepth
  split
  · rfl
  · rename_i kept
    rw [faultReason_kept kept]

/-- The FAULT condition set, and the feed governor told. -/
theorem setAcqFault_eq (b : Bool) (s : State) : setAcqFault b s = { s with
    acq := { s.acq with fault := b }
    depth := Governed s.depth { s.depth.reasons with acqFault := b }
    links := raisedLinks (if s.depth.feedHold = (Governed s.depth { s.depth.reasons with acqFault := b }).feedHold then 0
      else Flag.feedHold.only) s.links } := by
  unfold setAcqFault
  rw [govern_eq]
  rfl

theorem judgeScan_eq (valid : Bool) (s : State) : judgeScan valid s = { s with
    acq := judgedAcq valid s.acq
    depth := judgedDepth valid s
    links := raisedLinks (if s.depth.feedHold = (judgedDepth valid s).feedHold then 0 else Flag.feedHold.only)
      (raisedLinks (flagsOfList (invalidFlags valid s)) s.links) } := by
  have quiet (n : Links) : raisedLinks 0 n = n := raisedLinks_zero n
  have none_ (n : Links) : raisedLinks (flagsOfList []) n = n := raisedLinks_zero n
  cases valid with
  | true =>
    have flags : invalidFlags true s = [] := if_neg fun c => nomatch c.1
    have depth : judgedDepth true s = Governed s.depth { s.depth.reasons with acqFault := false } := if_pos (.inl rfl)
    rw [flags, none_, depth]
    exact setAcqFault_eq false _
  | false =>
    have unfolded : judgeScan false s = if 5 ≤ s.acq.invalidCount then s
        else if s.acq.invalidCount + 1 = 5 then
          setAcqFault true (raise .sensorFault (s.setAcq fun a => { a with invalidCount := a.invalidCount + 1 }))
        else s.setAcq fun a => { a with invalidCount := a.invalidCount + 1 } := rfl
    rw [unfolded]
    by_cases fifth : s.acq.invalidCount = 4
    · have flags : invalidFlags false s = [.sensorFault] := if_pos ⟨rfl, fifth⟩
      have reason : faultReason false s = true := by simp [faultReason, fifth]
      have depth : judgedDepth false s = Governed s.depth { s.depth.reasons with acqFault := true } := by
        rw [judgedDepth, if_pos (.inr fifth), reason]
      have acq : judgedAcq false s.acq = { s.acq with invalidCount := s.acq.invalidCount + 1, fault := true } := by
        simp [judgedAcq, fifth]
      have one : flagsOfList [.sensorFault] = Flag.sensorFault.only := by
        rw [flagsOfList_cons, flagsOfList_nil]; exact BitVec.or_zero
      rw [if_neg (by omega), if_pos (by omega), setAcqFault_eq, flags, depth, acq, one]
      rfl
    · have flags : invalidFlags false s = [] := if_neg fun c => fifth c.2
      have depth : judgedDepth false s = s.depth := if_neg fun c => c.elim nofun fifth
      have other : (s.acq.invalidCount == 4) = false := beq_eq_false_iff_ne.mpr fifth
      rw [flags, none_, depth, if_pos rfl, quiet]
      by_cases many : 5 ≤ s.acq.invalidCount
      · have acq : judgedAcq false s.acq = s.acq := by
          simp [judgedAcq, other, not_lt.mpr many]
        rw [if_pos many, acq]
      · have acq : judgedAcq false s.acq = { s.acq with invalidCount := s.acq.invalidCount + 1 } := by
          simp [judgedAcq, other, not_le.mp many]
        rw [if_neg many, if_neg (by omega), acq]
        rfl

/-! ## The scan record (R19, R29, R31) -/

/-- The record of a scan's conversions. -/
def scanRecord (results : List Conversion) (seq : Nat) : ScanRecord :=
  { seq := (seq + 1) % 65536, valid := validRf (((scanEntries results)[Channel.rf.code]?).join), entries := scanEntries results }

theorem entryOf_scanRecord (results : List Conversion) (seq : Nat) (ch : Channel) :
    entryOf (scanRecord results seq) ch.code = scanValue results ch := by
  cases ch <;> rfl

theorem meanOf_roundsTo {xs : List Int} (h : xs ≠ []) : RoundsTo xs.sum xs.length (meanOf xs) :=
  roundAway_roundsTo _ (by exact_mod_cast List.length_pos_iff.mpr h)

/-- The conversions of a channel in a scan. -/
def ownOf (results : List Conversion) (ch : Channel) : List Conversion := results.filter fun x => x.channel = ch

theorem scanValue_none {results : List Conversion} {ch : Channel} (h : ownOf results ch = []) :
    scanValue results ch = none := by
  have empty : (ownOf results ch).isEmpty = true := List.isEmpty_iff.mpr h
  unfold scanValue
  exact if_pos empty

theorem scanValue_some {results : List Conversion} {ch : Channel} (h : ownOf results ch ≠ []) : scanValue results ch =
    some { value := meanOf ((ownOf results ch).map (·.result.value))
           saturated := (ownOf results ch).any (·.result.saturated) } := by
  have present : ¬(ownOf results ch).isEmpty = true := mt List.isEmpty_iff.mp h
  unfold scanValue
  exact if_neg present

/-- A channel's scan value is the mean of its conversions (R19). -/
theorem scanValue_mean {results : List Conversion} {ch : Channel} (h : ownOf results ch ≠ []) :
    RoundsTo ((ownOf results ch).map (·.result.value)).sum (ownOf results ch).length
      (meanOf ((ownOf results ch).map (·.result.value))) := by
  have rounds := meanOf_roundsTo (xs := (ownOf results ch).map (·.result.value)) (by simpa using h)
  rw [List.length_map] at rounds
  exact rounds

/-- A scan is valid when its reference is absent or within its limits (R29). -/
theorem scanRecord_valid (results : List Conversion) (seq : Nat) : (scanRecord results seq).valid = true
    ↔ ∀ v, entryOf (scanRecord results seq) 0 = some v → 2960 ≤ v.value ∧ v.value ≤ 3040 := by
  have reference : entryOf (scanRecord results seq) 0 = ((scanEntries results)[Channel.rf.code]?).join := rfl
  rw [reference]
  change validRf (((scanEntries results)[Channel.rf.code]?).join) = true ↔ _
  cases ((scanEntries results)[Channel.rf.code]?).join with
  | none => simp [validRf]
  | some v => simp [validRf]

/-! ## The consumers of a scan, valid or not -/

/-- What the consumers do to a state. -/
theorem consumers_spec (r : ScanRecord) (s : State) : let t := consumers r s
    t = { s with table := t.table, align := t.align, drives := t.drives, plates := t.plates, ret := t.ret, links := t.links
                 draws := t.draws }
    ∧ t.links = raisedLinks (flagsOfList (noticeFlags (r.valid && (wheelNotice r .a s || wheelNotice r .b s))
        ++ jamFlags (r.valid && jammed r s))) s.links
    ∧ (r.valid = true → t.table = (stationScan r s).table ∧ t.align = evaluateAlign r s ∧ t.drives = (driveScan r s).drives
        ∧ t.ret = (returnScan r s).ret
        ∧ (t.plates = (plateScan r s).plates ∨ t.plates = (plateScan r { s with align := t.align }).plates))
    ∧ (r.valid = false → t.table = s.table ∧ t.align = s.align ∧ t.drives = s.drives ∧ t.plates = s.plates
        ∧ t.ret = s.ret) := by
  intro t
  cases valid : r.valid with
  | true =>
    obtain ⟨ps, plates, taken⟩ := consumers_valid valid s
    have taken : t = _ := taken
    generalize t = t at taken ⊢
    subst taken
    refine ⟨rfl, ?_, fun _ => ⟨rfl, rfl, rfl, rfl, plates⟩, nofun⟩
    rw [raisedLinks_append]
    rfl
  | false =>
    have taken : t = s.drawn := consumers_invalid valid s
    generalize t = t at taken ⊢
    subst taken
    refine ⟨rfl, ?_, nofun, fun _ => ⟨rfl, rfl, rfl, rfl, rfl⟩⟩
    exact (raisedLinks_zero s.links).symm

/-! ## Going on (R23, R26) -/

/-- How the unit goes on does not look at what a scan published. -/
theorem nextScan_published (now : Nat) (a : Acquisition) (rs : List Conversion) (conv : Timer) (latest : Option ScanRecord)
    (seq count : Nat) (fault : Bool) (zero : Int) :
    nextScan now { a with
      results := rs, conversion := conv, latest := latest, seq := seq, invalidCount := count, fault := fault, zero := zero }
    = { nextScan now a with latest := latest, seq := seq, invalidCount := count, fault := fault, zero := zero } := by
  unfold nextScan
  dsimp only
  split
  · rfl
  · split
    · split <;> rfl
    · rfl

/-! ## The depth counter after the last conversion (R27, R30, R47) -/

/-- The depth counter after the last conversion of a scan. -/
def lastDepth (valid : Bool) (s : State) : DepthCounter :=
  if s.acq.pendingMode = .off then Governed (judgedDepth valid s) { (judgedDepth valid s).reasons with acqOff := true }
  else judgedDepth valid s

theorem lastDepth_frame (valid : Bool) (s : State) : lastDepth valid s = { s.depth with
    reasons := { s.depth.reasons with
      acqFault := faultReason valid s, acqOff := s.depth.reasons.acqOff || s.acq.pendingMode == .off }
    feedHold := (lastDepth valid s).feedHold } := by
  unfold lastDepth
  by_cases off : s.acq.pendingMode = .off
  · have on : (s.acq.pendingMode == .off) = true := beq_iff_eq.mpr off
    rw [if_pos off, on, Bool.or_true, judgedDepth_frame]
    rfl
  · have other : (s.acq.pendingMode == .off) = false := beq_eq_false_iff_ne.mpr off
    rw [if_neg off, other, Bool.or_false]
    exact judgedDepth_frame valid s

/-- With the line in step, the judgement governs the counter in every case. -/
theorem judgedDepth_governed {s : State} (law : LineLaw s) (valid : Bool) :
    judgedDepth valid s = Governed s.depth { s.depth.reasons with acqFault := faultReason valid s } := by
  by_cases told_ : valid = true ∨ s.acq.invalidCount = 4
  · exact if_pos told_
  · rw [judgedDepth, if_neg told_, faultReason_kept told_]
    exact law

theorem lastDepth_line {s : State} (law : LineLaw s) (valid : Bool) :
    lastDepth valid s = Governed (lastDepth valid s) (lastDepth valid s).reasons := by
  unfold lastDepth
  split
  · rfl
  · rw [judgedDepth_governed law]
    rfl

/-- Raises of flags one over another, in any order. -/
theorem raisedLinks_comm (x y : FlagSet) (n : Links) : raisedLinks x (raisedLinks y n) = raisedLinks y (raisedLinks x n) := by
  rw [raisedLinks_raisedLinks, raisedLinks_raisedLinks, BitVec.or_comm]

/-- The Station Table does not look at the time of a scan. -/
theorem stationScan_at (r : ScanRecord) (s : State) (due : Nat) :
    (stationScan r (s.reach due)).table = (stationScan r s).table := by
  unfold stationScan
  split <;> rfl

/-- A flag among those raised is set in each link's flags. -/
theorem has_of_raised {t : State} {x : FlagSet} {n : Links} {f : Flag} (h : t.links = raisedLinks x n) (hx : x.has f = true)
    (l : Link) : ((t.link l).flags).has f = true := by
  have bit : x.getLsbD f.bit = true := hx
  cases l <;> simp [State.link, h, raisedLinks, FlagSet.has, bit]

/-- The flags of a judgement and its consumers, raised one after the other, are those of one list. -/
theorem raisedLinks_published (a b c : Bool) (zr inv tally jam : List Flag) (n : Links) :
    raisedLinks (if b = c then 0 else Flag.feedHold.only) (raisedLinks (flagsOfList (tally ++ jam))
      (raisedLinks (if a = b then 0 else Flag.feedHold.only) (raisedLinks (flagsOfList inv)
        (raisedLinks (flagsOfList zr) n))))
    = raisedLinks (flagsOfList (zr ++ inv ++ (if a = b ∧ b = c then [] else [.feedHold]) ++ tally ++ jam)) n := by
  have one : (if b = c then 0 else Flag.feedHold.only) = flagsOfList (if b = c then [] else [.feedHold]) := by
    split
    · rfl
    · rw [flagsOfList_cons, flagsOfList_nil]; exact BitVec.or_zero.symm
  rw [one, raisedLinks_line, raisedLinks_comm]
  simp only [raisedLinks_append]

/-- Settles O41: the conversion, the judgement, the consumers, and how the unit goes on. -/
theorem lastConversionPublishesTheScan : Obligations.LastConversionPublishesTheScan := by
  intro s due c raw hs hd hc scanning last now zr got mean
  refine completes_due (c := .conversionCompletion raw) hs hd ?_
  have gained := converted_eq raw c (s := s.reach due) (.inl scanning)
  have entry : (s.reach due).acq.activeList[(s.reach due).acq.results.length]? = some c := hc
  have full : ¬(converted raw c (s.reach due)).acq.results.length < (converted raw c (s.reach due)).acq.activeList.length := by
    rw [gained]; simp [last]
  have published : ¬(converted raw c (s.reach due)).acq.state = .settling := by
    rw [gained]; change ¬s.acq.state = _; rw [scanning]; nofun
  have rule : eventRule (.conversionCompletion raw) (s.reach due)
      = afterScan (publishScan (converted raw c (s.reach due))) := by
    simp only [eventRule]
    rw [conversionDone_of_entry entry, if_neg full, scanCompletion, if_neg published]
  rw [rule]
  generalize converted raw c (s.reach due) = g at gained
  have results : g.acq.results = got := by rw [gained]; rfl
  have seq : g.acq.seq = s.acq.seq := by rw [gained]; rfl
  obtain ⟨r, hr⟩ : ∃ r, r = scanRecord got s.acq.seq := ⟨_, rfl⟩
  obtain ⟨p, hp⟩ : ∃ p, p = (judgeScan r.valid g).setAcq fun a => { a with seq := r.seq, latest := some r } := ⟨_, rfl⟩
  have judgedSeq (v : Bool) : (judgeScan v g).acq.seq = s.acq.seq := by rw [judgeScan_eq]; exact seq
  have publishing : publishScan g = consumers r p := by
    unfold publishScan
    dsimp only
    rw [results, judgedSeq, hp, hr]
    rfl
  rw [publishing, afterScan_eq]
  obtain ⟨frame, links, valid, invalid⟩ := consumers_spec r p
  generalize consumers r p = q at frame links valid invalid
  have gDepth : judgedDepth r.valid g = judgedDepth r.valid s := by rw [gained]; rfl
  rw [judgeScan_eq, gDepth] at hp
  have alike : ReadAlike (s.reach due) p := by
    rw [hp, judgedDepth_frame, gained]
    exact ⟨rfl, rfl, rfl, rfl, rfl, rfl, rfl, rfl, rfl, rfl, rfl⟩
  have depth : endedDepth q = lastDepth r.valid s := by
    rw [frame, hp, gained]; rfl
  have acq : nextScan q.clock q.acq = { nextScan (max s.clock due) s.acq with
      latest := some r, seq := r.seq, invalidCount := (judgedAcq r.valid s.acq).invalidCount
      fault := (judgedAcq r.valid s.acq).fault, zero := zeroGained raw c (s.reach due) } := by
    have before : q.acq = { s.acq with
        results := got, conversion := some (max s.clock due + 2000), latest := some r, seq := r.seq
        invalidCount := (judgedAcq r.valid s.acq).invalidCount, fault := (judgedAcq r.valid s.acq).fault
        zero := zeroGained raw c (s.reach due) } := by
      rw [frame, hp, gained]; rfl
    have clock : q.clock = max s.clock due := by rw [frame, hp, gained]; rfl
    rw [before, clock]
    exact nextScan_published (max s.clock due) s.acq got _ _ _ _ _ _
  have line : q.depth = judgedDepth r.valid s := by rw [frame, hp]; rfl
  have pLinks : p.links = raisedLinks (if s.depth.feedHold = (judgedDepth r.valid s).feedHold then 0 else Flag.feedHold.only)
      (raisedLinks (flagsOfList (invalidFlags r.valid s)) (raisedLinks (flagsOfList (zeroFlags raw c (s.reach due))) s.links)) := by
    rw [hp, gained]; rfl
  rw [acq, depth, line]
  have zero : zeroGained raw c (s.reach due) = if c = .zr ∧ |zr| ≤ 64 then zr else s.acq.zero := by
    have clamped : clamp (-2048) 2047 raw = zr := clamp_eq (by decide) raw
    unfold zeroGained
    rw [clamped]
    exact if_congr (and_congr_left' (and_iff_left scanning)) rfl rfl
  have checked : zeroFlags raw c (s.reach due) = if c = .zr ∧ 64 < |zr| then [.sensorFault] else [] := by
    have clamped : clamp (-2048) 2047 raw = zr := clamp_eq (by decide) raw
    unfold zeroFlags
    rw [clamped]
    exact if_congr (and_congr_left' (and_iff_left scanning)) rfl rfl
  have total := raisedLinks_published s.depth.feedHold (judgedDepth r.valid s).feedHold (lastDepth r.valid s).feedHold
    (zeroFlags raw c (s.reach due)) (invalidFlags r.valid s)
    (noticeFlags (r.valid && (wheelNotice r .a p || wheelNotice r .b p))) (jamFlags (r.valid && jammed r p)) s.links
  rw [← pLinks, ← links] at total
  refine ⟨r, ?_, by rw [hr]; rfl, by rw [hr]; rfl, fun ch => ?_, by rw [hr]; exact scanRecord_valid _ _, fun ok => ?_, fun bad => ?_,
    fun ok => ?_, fun law => ?_⟩
  · have kept : q = { now with
        acq := q.acq, depth := q.depth, table := q.table, align := q.align, drives := q.drives, plates := q.plates
        ret := q.ret, links := q.links, draws := q.draws } := by rw [frame, hp, gained]; rfl
    have resetLine : q.resetLine = s.resetLine := by rw [kept]
    have clock : q.clock = max s.clock due := by rw [kept]
    have panel : q.panel = s.panel := by rw [kept]
    have geometry : q.geometry = s.geometry := by rw [kept]
    have demand : q.demand = s.demand := by rw [kept]
    have archive : q.archive = s.archive := by rw [kept]
    have pending : q.pending = s.pending := by rw [kept]
    rw [zero]
    exact state_eq resetLine clock panel geometry rfl (lastDepth_frame r.valid s) rfl rfl rfl rfl rfl demand rfl archive rfl
      pending
  · rw [hr, entryOf_scanRecord]
    exact ⟨scanValue_none, fun some_ => ⟨_, scanValue_some some_, scanValue_mean some_, rfl⟩⟩
  · simp [judgedAcq, ok]
  · obtain ⟨table, align, drives, plates, ret⟩ := invalid bad
    have kept : p.table = s.table ∧ p.align = s.align ∧ p.drives = s.drives ∧ p.plates = s.plates ∧ p.ret = s.ret := by
      rw [hp, gained]; exact ⟨rfl, rfl, rfl, rfl, rfl⟩
    obtain ⟨pTable, pAlign, pDrives, pPlates, pRet⟩ := kept
    refine ⟨by simp [judgedAcq, bad], by simp [judgedAcq, bad], fun fifth l => ?_, table.trans pTable, align.trans pAlign,
      drives.trans pDrives, plates.trans pPlates, ret.trans pRet⟩
    have fault : invalidFlags r.valid s = [.sensorFault] := if_pos ⟨bad, fifth⟩
    refine has_of_raised total ?_ l
    rw [fault, flagsOfList_append, flagsOfList_append, flagsOfList_append, flagsOfList_append, flagsOfList_cons]
    have bit : Flag.sensorFault.only.getLsbD Flag.sensorFault.bit = true := by decide
    simp only [FlagSet.has, BitVec.getLsbD_or, bit, Bool.or_true, Bool.true_or]
  · obtain ⟨table, align, drives, ret, plates⟩ := valid ok
    have pTable : p.table = s.table := by rw [hp, gained]; rfl
    have pDrives : p.drives = s.drives := by rw [hp, gained]; rfl
    have pRet : p.ret = s.ret := by rw [hp, gained]; rfl
    have pPlates : p.plates = s.plates := by rw [hp, gained]; rfl
    have pAlign : p.align = s.align := by rw [hp, gained]; rfl
    refine ⟨?_, ?_, ?_, ?_, ?_⟩
    · exact (table.trans (stationScan_congr alike pTable)).trans (stationScan_at r s _)
    · have read := evaluateAlign_congr (r := r) alike
      exact align.trans read
    · refine drives.trans ?_
      rw [driveScan_eq ok, driveScan_eq ok, wheelAfter_congr alike pDrives, wheelAfter_congr alike pDrives, pDrives]
      rfl
    · exact ret.trans (returnScan_congr alike pRet)
    · refine plates.imp (fun first => ?_) fun second => ?_
      · refine first.trans ?_
        rw [plateScan_eq ok, plateScan_eq ok]
        exact platesAfter_congr alike pPlates
      · refine second.trans ?_
        rw [plateScan_eq ok, plateScan_eq ok]
        exact platesAfter_congr ⟨alike.clock, alike.panel, alike.geometry, alike.ref, alike.count, alike.lastFeed,
          alike.reference, alike.records, rfl, alike.retState, alike.demand⟩ pPlates
  · intro judged
    have governed : judgedDepth r.valid s = judged := judgedDepth_governed law r.valid
    have pDrives : p.drives = s.drives := by rw [hp, gained]; rfl
    have pPlates : p.plates = s.plates := by rw [hp, gained]; rfl
    have noticed : (wheelNotice r .a p || wheelNotice r .b p) = true ↔ TallyNoticed s r := by
      rw [wheelNotice_congr alike pDrives, wheelNotice_congr alike pDrives]
      exact tallyNoticed_iff (s := s.reach due)
    have jam : jammed r p = true ↔ ∃ i, Jams s r i := by
      rw [jammed_congr (s := s) pPlates]
      exact jammed_iff r s
    refine ⟨lastDepth_line law r.valid, _, _, Bool.and_eq_true_iff.trans (and_congr_right' noticed),
      Bool.and_eq_true_iff.trans (and_congr_right' jam), (linksKept_iff _ _ _).mpr ?_⟩
    refine Eq.trans total ?_
    rw [checked, governed]
    rfl

end Sys2Proof.Machine
end
